-- ==== Sys2Proof/Word.lean ====
section
/-! DEFINITION. The word types of the CHIP-8 core (spec/00_scope.md R7, R9): bit 0 is the least significant bit of
every value and every value is unsigned. The bit-field helpers stand in Decode.lean, where a repair may mend them. -/

namespace Sys2Proof

/-- One memory byte, and the width of a general register (`REG_WIDTH`, R7). -/
abbrev Byte := BitVec 8

/-- An instruction word, and the width of `I`, `PC` and of a stack entry (`ADDR_REG_WIDTH`, R7). -/
abbrev Word := BitVec 16

/-- A register number, as the 4-bit fields `x` and `y` hold it (R91): every value names a register. -/
abbrev RegIx := BitVec 4

/-- The 12-bit address immediate `nnn` (R91). -/
abbrev Imm12 := BitVec 12

/-- `FAULT_INFO`, 17 bits (R33). -/
abbrev FaultInfo := BitVec 17

/-- The framebuffer: a 64 by 32 grid of one-bit cells, row-major (R29): bit `cx` of row `cy` is `FB[cy * 64 + cx]`. -/
abbrev Framebuffer := Vector (BitVec 64) 32

/-- The key latch: 16 one-bit flags, `KEYS[k]` being bit `k` (R28). -/
abbrev KeyLatch := BitVec 16

end Sys2Proof
end

