-- ==== Sys2Proof/Config.lean ====
section
/-! DEFINITION. What the hardware fixes once (spec/00_scope.md R7) and the one value the spec leaves free, the random
byte of `RND` (R8, spec/60_exceptions.md R245). The `FONT` parameter is plain data in `State.env` (log entry 1). -/

namespace Sys2Proof.Config

/-- `MEM_SIZE`: addresses 0 to 4095 (R7). -/
def memSize : Nat := 4096

/-- `FONT_SIZE`: the font table is addresses 0 to 79 (`FONT_BASE` is 0, R7). -/
def fontSize : Nat := 80

/-- `GLYPH_BYTES` (R7). -/
def glyphBytes : Nat := 5

/-- `PROG_BASE`, where `load` puts a program and where `PC` starts (R7). -/
def progBase : Nat := 512

/-- `MAX_PROG_LEN` (R7). -/
def maxProgLen : Nat := 3584

/-- `STACK_DEPTH` (R7). -/
def stackDepth : Nat := 16

/-- `FB_WIDTH` (R7). -/
def fbWidth : Nat := 64

/-- `FB_HEIGHT` (R7). -/
def fbHeight : Nat := 32

/-- `INSTR_BYTES` (R7). -/
def instrBytes : Nat := 2

/-- FREE VALUE (R245: "any value", "under no law"): the byte `draw_rand()` gives at the `k`-th draw for which the
environment has queued no byte in `Env.draws`. It has no body, so no proof can know it (log entry 2). -/
opaque freeDraw : Nat → Byte

end Sys2Proof.Config
end

