-- ==== Sys2Proof/Syntax.lean ====
section
/-! DEFINITION. The 35 instructions of spec/30_encoding.md R94 (spec/opcode_table.json), one constructor a row, in the
table's order. Operands are the fields of R91 at their own widths, so a term with an operand out of range cannot be
built; the `y` field that `SHR` and `SHL` ignore (R97) is kept, so that every legal word has exactly one term. -/

namespace Sys2Proof

inductive Instr where
  /-- `0000` `NOP` (R123). -/
  | nop
  /-- `00E0` `CLS` (R191). -/
  | cls
  /-- `00EE` `RET` (R124). -/
  | ret
  /-- `1nnn` `JP nnn` (R125). -/
  | jp (nnn : Imm12)
  /-- `2nnn` `CALL nnn` (R126). -/
  | call (nnn : Imm12)
  /-- `3xnn` `SE Vx, nn` (R127). -/
  | seImm (x : RegIx) (nn : Byte)
  /-- `4xnn` `SNE Vx, nn` (R128). -/
  | sneImm (x : RegIx) (nn : Byte)
  /-- `5xy0` `SE Vx, Vy` (R129). -/
  | seReg (x y : RegIx)
  /-- `6xnn` `LD Vx, nn` (R142). -/
  | ldImm (x : RegIx) (nn : Byte)
  /-- `7xnn` `ADD Vx, nn` (R143). -/
  | addImm (x : RegIx) (nn : Byte)
  /-- `8xy0` `LD Vx, Vy` (R144). -/
  | ldReg (x y : RegIx)
  /-- `8xy1` `OR Vx, Vy` (R145). -/
  | or (x y : RegIx)
  /-- `8xy2` `AND Vx, Vy` (R146). -/
  | and (x y : RegIx)
  /-- `8xy3` `XOR Vx, Vy` (R147). -/
  | xor (x y : RegIx)
  /-- `8xy4` `ADD Vx, Vy` (R148). -/
  | addReg (x y : RegIx)
  /-- `8xy5` `SUB Vx, Vy` (R149). -/
  | sub (x y : RegIx)
  /-- `8xy6` `SHR Vx`, `y` ignored (R150). -/
  | shr (x y : RegIx)
  /-- `8xy7` `SUBN Vx, Vy` (R151). -/
  | subn (x y : RegIx)
  /-- `8xyE` `SHL Vx`, `y` ignored (R152). -/
  | shl (x y : RegIx)
  /-- `9xy0` `SNE Vx, Vy` (R130). -/
  | sneReg (x y : RegIx)
  /-- `annn` `LD I, nnn` (R170). -/
  | ldI (nnn : Imm12)
  /-- `bnnn` `JP V0, nnn` (R131). -/
  | jpV0 (nnn : Imm12)
  /-- `cxnn` `RND Vx, nn` (R153). -/
  | rnd (x : RegIx) (nn : Byte)
  /-- `dxyn` `DRW Vx, Vy, n` (R192). -/
  | drw (x y : RegIx) (n : BitVec 4)
  /-- `ex9E` `SKP Vx` (R200). -/
  | skp (x : RegIx)
  /-- `exA1` `SKNP Vx` (R201). -/
  | sknp (x : RegIx)
  /-- `fx07` `LD Vx, DT` (R202). -/
  | ldVxDt (x : RegIx)
  /-- `fx0A` `LD Vx, K` (R203). -/
  | ldVxK (x : RegIx)
  /-- `fx15` `LD DT, Vx` (R205). -/
  | ldDtVx (x : RegIx)
  /-- `fx18` `LD ST, Vx` (R206). -/
  | ldStVx (x : RegIx)
  /-- `fx1E` `ADD I, Vx` (R171). -/
  | addI (x : RegIx)
  /-- `fx29` `LD F, Vx` (R172). -/
  | ldF (x : RegIx)
  /-- `fx33` `LD B, Vx` (R173). -/
  | ldB (x : RegIx)
  /-- `fx55` `LD [I], Vx` (R175). -/
  | ldMemVx (x : RegIx)
  /-- `fx65` `LD Vx, [I]` (R176). -/
  | ldVxMem (x : RegIx)
  deriving DecidableEq, Repr

end Sys2Proof
end

