-- ==== Sys2Proof/WellFormed.lean ====
section
/-! DEFINITION. Well-formedness. A term of `Instr` is well formed by its types (Syntax.lean). What can be ill formed is
text before it is an instruction: a line of the assembler syntax of spec/30_encoding.md R99 and R100 (an operand number
out of its range "is an assembly error, never truncated"; an operand shape no row has) and a program longer than `load`
accepts (R7 `MAX_PROG_LEN`). `assemble` selects the row by mnemonic and operand shape; `disassemble` prints one. -/

namespace Sys2Proof

/-- The customary mnemonics of R99; `SE`, `SNE`, `LD`, `ADD` and `JP` are overloaded and told apart by operands. -/
inductive AsmMnemonic where
  | NOP | CLS | RET | JP | CALL | SE | SNE | LD | ADD | OR | AND | XOR | SUB | SHR | SUBN | SHL | RND | DRW | SKP | SKNP
  deriving DecidableEq, Repr

/-- An operand as written: a register `V<n>`, a number, or a fixed operand word (R99). -/
inductive AsmOperand where
  | v (n : Nat)
  | num (n : Nat)
  | i | dt | st | k | f | b | memI
  deriving DecidableEq, Repr

/-- `MNEMONIC [operand {, operand}]` (R99). -/
structure AsmLine where
  mnemonic : AsmMnemonic
  operands : List AsmOperand
  deriving DecidableEq, Repr

/-- A register operand: `V0` to `VF` (R99). -/
def asmReg (n : Nat) : Option RegIx := if n < 16 then some (BitVec.ofNat 4 n) else none

/-- `nn`, a number 0 to 255 (R99). -/
def asmByte (n : Nat) : Option Byte := if n < 256 then some (BitVec.ofNat 8 n) else none

/-- `nnn`, a number 0 to 4095 (R99). -/
def asmAddr (n : Nat) : Option Imm12 := if n < 4096 then some (BitVec.ofNat 12 n) else none

/-- `n`, a number 0 to 15 (R99). -/
def asmRows (n : Nat) : Option (BitVec 4) := if n < 16 then some (BitVec.ofNat 4 n) else none

/-- One register operand. -/
def asmX (c : RegIx → Instr) (x : Nat) : Option Instr := (asmReg x).map c

/-- Two register operands. -/
def asmXY (c : RegIx → RegIx → Instr) (x y : Nat) : Option Instr :=
  (asmReg x).bind fun rx => (asmReg y).map (c rx)

/-- A register and a byte immediate. -/
def asmXNN (c : RegIx → Byte → Instr) (x nn : Nat) : Option Instr :=
  (asmReg x).bind fun rx => (asmByte nn).map (c rx)

/-- An address immediate. -/
def asmNNN (c : Imm12 → Instr) (nnn : Nat) : Option Instr := (asmAddr nnn).map c

/-- "The mnemonic with its operand shape selects the row" (R99). `none` is an assembly error. -/
def assemble (l : AsmLine) : Option Instr :=
  match l.mnemonic, l.operands with
  | .NOP, [] => some .nop
  | .CLS, [] => some .cls
  | .RET, [] => some .ret
  | .JP, [.num a] => asmNNN .jp a
  | .JP, [.v 0, .num a] => asmNNN .jpV0 a
  | .CALL, [.num a] => asmNNN .call a
  | .SE, [.v x, .num k] => asmXNN .seImm x k
  | .SE, [.v x, .v y] => asmXY .seReg x y
  | .SNE, [.v x, .num k] => asmXNN .sneImm x k
  | .SNE, [.v x, .v y] => asmXY .sneReg x y
  | .LD, [.v x, .num k] => asmXNN .ldImm x k
  | .LD, [.v x, .v y] => asmXY .ldReg x y
  | .LD, [.i, .num a] => asmNNN .ldI a
  | .LD, [.v x, .dt] => asmX .ldVxDt x
  | .LD, [.v x, .k] => asmX .ldVxK x
  | .LD, [.dt, .v x] => asmX .ldDtVx x
  | .LD, [.st, .v x] => asmX .ldStVx x
  | .LD, [.f, .v x] => asmX .ldF x
  | .LD, [.b, .v x] => asmX .ldB x
  | .LD, [.memI, .v x] => asmX .ldMemVx x
  | .LD, [.v x, .memI] => asmX .ldVxMem x
  | .ADD, [.v x, .num k] => asmXNN .addImm x k
  | .ADD, [.v x, .v y] => asmXY .addReg x y
  | .ADD, [.i, .v x] => asmX .addI x
  | .OR, [.v x, .v y] => asmXY .or x y
  | .AND, [.v x, .v y] => asmXY .and x y
  | .XOR, [.v x, .v y] => asmXY .xor x y
  | .SUB, [.v x, .v y] => asmXY .sub x y
  | .SHR, [.v x] => asmXY .shr x 0
  | .SHR, [.v x, .v y] => asmXY .shr x y
  | .SUBN, [.v x, .v y] => asmXY .subn x y
  | .SHL, [.v x] => asmXY .shl x 0
  | .SHL, [.v x, .v y] => asmXY .shl x y
  | .RND, [.v x, .num k] => asmXNN .rnd x k
  | .DRW, [.v x, .v y, .num n] => (asmRows n).bind fun r => asmXY (fun a b => .drw a b r) x y
  | .SKP, [.v x] => asmX .skp x
  | .SKNP, [.v x] => asmX .sknp x
  | _, _ => none

/-- The spelling the disassembler prints for `SHR` and `SHL`: with `Vy` when `y` is not 0 (R99). -/
def shiftOperands (x y : RegIx) : List AsmOperand :=
  if y = 0 then [.v x.toNat] else [.v x.toNat, .v y.toNat]

/-- The printer of R99. -/
def disassemble : Instr → AsmLine
  | .nop => ⟨.NOP, []⟩
  | .cls => ⟨.CLS, []⟩
  | .ret => ⟨.RET, []⟩
  | .jp a => ⟨.JP, [.num a.toNat]⟩
  | .call a => ⟨.CALL, [.num a.toNat]⟩
  | .seImm x k => ⟨.SE, [.v x.toNat, .num k.toNat]⟩
  | .sneImm x k => ⟨.SNE, [.v x.toNat, .num k.toNat]⟩
  | .seReg x y => ⟨.SE, [.v x.toNat, .v y.toNat]⟩
  | .ldImm x k => ⟨.LD, [.v x.toNat, .num k.toNat]⟩
  | .addImm x k => ⟨.ADD, [.v x.toNat, .num k.toNat]⟩
  | .ldReg x y => ⟨.LD, [.v x.toNat, .v y.toNat]⟩
  | .or x y => ⟨.OR, [.v x.toNat, .v y.toNat]⟩
  | .and x y => ⟨.AND, [.v x.toNat, .v y.toNat]⟩
  | .xor x y => ⟨.XOR, [.v x.toNat, .v y.toNat]⟩
  | .addReg x y => ⟨.ADD, [.v x.toNat, .v y.toNat]⟩
  | .sub x y => ⟨.SUB, [.v x.toNat, .v y.toNat]⟩
  | .shr x y => ⟨.SHR, shiftOperands x y⟩
  | .subn x y => ⟨.SUBN, [.v x.toNat, .v y.toNat]⟩
  | .shl x y => ⟨.SHL, shiftOperands x y⟩
  | .sneReg x y => ⟨.SNE, [.v x.toNat, .v y.toNat]⟩
  | .ldI a => ⟨.LD, [.i, .num a.toNat]⟩
  | .jpV0 a => ⟨.JP, [.v 0, .num a.toNat]⟩
  | .rnd x k => ⟨.RND, [.v x.toNat, .num k.toNat]⟩
  | .drw x y n => ⟨.DRW, [.v x.toNat, .v y.toNat, .num n.toNat]⟩
  | .skp x => ⟨.SKP, [.v x.toNat]⟩
  | .sknp x => ⟨.SKNP, [.v x.toNat]⟩
  | .ldVxDt x => ⟨.LD, [.v x.toNat, .dt]⟩
  | .ldVxK x => ⟨.LD, [.v x.toNat, .k]⟩
  | .ldDtVx x => ⟨.LD, [.dt, .v x.toNat]⟩
  | .ldStVx x => ⟨.LD, [.st, .v x.toNat]⟩
  | .addI x => ⟨.ADD, [.i, .v x.toNat]⟩
  | .ldF x => ⟨.LD, [.f, .v x.toNat]⟩
  | .ldB x => ⟨.LD, [.b, .v x.toNat]⟩
  | .ldMemVx x => ⟨.LD, [.memI, .v x.toNat]⟩
  | .ldVxMem x => ⟨.LD, [.v x.toNat, .memI]⟩

/-- A line of a program: an instruction, or one of the two directives of R100. -/
inductive AsmItem where
  | line (l : AsmLine)
  | dw (w : Nat)
  | db (b : Nat)
  deriving DecidableEq, Repr

/-- The check on one line: it assembles, and a directive's number fits (R99, R100). -/
def AsmItem.wellFormed : AsmItem → Bool
  | .line l => (assemble l).isSome
  | .dw w => w < 65536
  | .db b => b < 256

/-- Bytes a line takes: every instruction is 2 bytes (R90). -/
def AsmItem.size : AsmItem → Nat
  | .line _ => Config.instrBytes
  | .dw _ => 2
  | .db _ => 1

/-- A program `load` accepts: every line checks and the bytes fit `MAX_PROG_LEN` (R7, R238). -/
def programWellFormed (p : List AsmItem) : Bool :=
  p.all AsmItem.wellFormed && decide ((p.map AsmItem.size).sum ≤ Config.maxProgLen)

end Sys2Proof
end

