-- ==== Sys2Proof/Decode.lean ====
section
/-! DEFINITION. Instruction encoding (spec/30_encoding.md R90 to R97): the fields of a word, the decoder, total on every
word and on every list of bytes, the encoder, and the machine-readable opcode map of R94. -/

namespace Sys2Proof

/-! ### Fields (R91) -/

/-- `nibble1 = w[15:12]`, the major opcode. -/
def nibble1 (w : Word) : BitVec 4 := w.extractLsb' 12 4

/-- `x = nibble2 = w[11:8]`. -/
def fieldX (w : Word) : RegIx := w.extractLsb' 8 4

/-- `y = nibble3 = w[7:4]`. -/
def fieldY (w : Word) : RegIx := w.extractLsb' 4 4

/-- `n = nibble4 = w[3:0]`. -/
def fieldN (w : Word) : BitVec 4 := w.extractLsb' 0 4

/-- `nn = w[7:0]`. -/
def fieldNN (w : Word) : Byte := w.extractLsb' 0 8

/-- `nnn = w[11:0]`. -/
def fieldNNN (w : Word) : Imm12 := w.extractLsb' 0 12

/-- The byte that lies at the lower address (R65, R90). -/
def wordHi (w : Word) : Byte := w.extractLsb' 8 8

/-- The byte that lies at the higher address (R65, R90). -/
def wordLo (w : Word) : Byte := w.extractLsb' 0 8

/-- The big-endian word of two bytes, the first at the lower address (R65, R66). -/
def wordOfBytes (hi lo : Byte) : Word := hi ++ lo

/-! ### The decoder (R93, R94) -/

/-- Rows 1 to 3: within `nibble1 = 0` all 16 bits are fixed; every other `0nnn` is illegal (R96). -/
def decode0 (w : Word) : Option Instr :=
  if fieldNNN w = 0x000 then some .nop
  else if fieldNNN w = 0x0E0 then some .cls
  else if fieldNNN w = 0x0EE then some .ret
  else none

/-- Rows 11 to 19: within `nibble1 = 8` the rows differ in `n` (R94, R95). -/
def decode8 (w : Word) : Option Instr :=
  match (fieldN w).toNat with
  | 0x0 => some (.ldReg (fieldX w) (fieldY w))
  | 0x1 => some (.or (fieldX w) (fieldY w))
  | 0x2 => some (.and (fieldX w) (fieldY w))
  | 0x3 => some (.xor (fieldX w) (fieldY w))
  | 0x4 => some (.addReg (fieldX w) (fieldY w))
  | 0x5 => some (.sub (fieldX w) (fieldY w))
  | 0x6 => some (.shr (fieldX w) (fieldY w))
  | 0x7 => some (.subn (fieldX w) (fieldY w))
  | 0xE => some (.shl (fieldX w) (fieldY w))
  | _ => none

/-- Rows 25 and 26 (R94). -/
def decodeE (w : Word) : Option Instr :=
  if fieldNN w = 0x9E then some (.skp (fieldX w))
  else if fieldNN w = 0xA1 then some (.sknp (fieldX w))
  else none

/-- Rows 27 to 35 (R94). -/
def decodeF (w : Word) : Option Instr :=
  if fieldNN w = 0x07 then some (.ldVxDt (fieldX w))
  else if fieldNN w = 0x0A then some (.ldVxK (fieldX w))
  else if fieldNN w = 0x15 then some (.ldDtVx (fieldX w))
  else if fieldNN w = 0x18 then some (.ldStVx (fieldX w))
  else if fieldNN w = 0x1E then some (.addI (fieldX w))
  else if fieldNN w = 0x29 then some (.ldF (fieldX w))
  else if fieldNN w = 0x33 then some (.ldB (fieldX w))
  else if fieldNN w = 0x55 then some (.ldMemVx (fieldX w))
  else if fieldNN w = 0x65 then some (.ldVxMem (fieldX w))
  else none

/-- The decoder: a total function of the word alone (R93); `none` is an illegal word (R96). -/
def decodeWord (w : Word) : Option Instr :=
  match (nibble1 w).toNat with
  | 0x0 => decode0 w
  | 0x1 => some (.jp (fieldNNN w))
  | 0x2 => some (.call (fieldNNN w))
  | 0x3 => some (.seImm (fieldX w) (fieldNN w))
  | 0x4 => some (.sneImm (fieldX w) (fieldNN w))
  | 0x5 => if fieldN w = 0 then some (.seReg (fieldX w) (fieldY w)) else none
  | 0x6 => some (.ldImm (fieldX w) (fieldNN w))
  | 0x7 => some (.addImm (fieldX w) (fieldNN w))
  | 0x8 => decode8 w
  | 0x9 => if fieldN w = 0 then some (.sneReg (fieldX w) (fieldY w)) else none
  | 0xA => some (.ldI (fieldNNN w))
  | 0xB => some (.jpV0 (fieldNNN w))
  | 0xC => some (.rnd (fieldX w) (fieldNN w))
  | 0xD => some (.drw (fieldX w) (fieldY w) (fieldN w))
  | 0xE => decodeE w
  | 0xF => decodeF w
  | _ => none

/-- Why a list of bytes gives no instruction. -/
inductive DecodeError where
  /-- Fewer than the two bytes every instruction has (R90). -/
  | truncated
  /-- The word matches no row of R94 (R96). -/
  | invalidOpcode (w : Word)
  deriving DecidableEq, Repr

/-- Decoding bytes as they lie in memory: it consumes exactly two (R90) and answers the rest. -/
def decodeBytes : List Byte → Except DecodeError (Instr × List Byte)
  | hi :: lo :: rest =>
    match decodeWord (wordOfBytes hi lo) with
    | some i => .ok (i, rest)
    | none => .error (.invalidOpcode (wordOfBytes hi lo))
  | _ => .error .truncated

/-! ### The encoder -/

/-- Format `NNN` (R91). -/
def packNNN (op : BitVec 4) (nnn : Imm12) : Word := op ++ nnn

/-- Formats `XNN` and `X` (R91). -/
def packXNN (op : BitVec 4) (x : RegIx) (nn : Byte) : Word := op ++ (x ++ nn)

/-- Formats `XY` and `XYN` (R91). -/
def packXYN (op : BitVec 4) (x y : RegIx) (n : BitVec 4) : Word := op ++ (x ++ (y ++ n))

/-- The word of an instruction (R94). -/
def encode : Instr → Word
  | .nop => 0x0000
  | .cls => 0x00E0
  | .ret => 0x00EE
  | .jp a => packNNN 0x1 a
  | .call a => packNNN 0x2 a
  | .seImm x k => packXNN 0x3 x k
  | .sneImm x k => packXNN 0x4 x k
  | .seReg x y => packXYN 0x5 x y 0x0
  | .ldImm x k => packXNN 0x6 x k
  | .addImm x k => packXNN 0x7 x k
  | .ldReg x y => packXYN 0x8 x y 0x0
  | .or x y => packXYN 0x8 x y 0x1
  | .and x y => packXYN 0x8 x y 0x2
  | .xor x y => packXYN 0x8 x y 0x3
  | .addReg x y => packXYN 0x8 x y 0x4
  | .sub x y => packXYN 0x8 x y 0x5
  | .shr x y => packXYN 0x8 x y 0x6
  | .subn x y => packXYN 0x8 x y 0x7
  | .shl x y => packXYN 0x8 x y 0xE
  | .sneReg x y => packXYN 0x9 x y 0x0
  | .ldI a => packNNN 0xA a
  | .jpV0 a => packNNN 0xB a
  | .rnd x k => packXNN 0xC x k
  | .drw x y n => packXYN 0xD x y n
  | .skp x => packXNN 0xE x 0x9E
  | .sknp x => packXNN 0xE x 0xA1
  | .ldVxDt x => packXNN 0xF x 0x07
  | .ldVxK x => packXNN 0xF x 0x0A
  | .ldDtVx x => packXNN 0xF x 0x15
  | .ldStVx x => packXNN 0xF x 0x18
  | .addI x => packXNN 0xF x 0x1E
  | .ldF x => packXNN 0xF x 0x29
  | .ldB x => packXNN 0xF x 0x33
  | .ldMemVx x => packXNN 0xF x 0x55
  | .ldVxMem x => packXNN 0xF x 0x65

/-- An instruction's bytes as they lie in memory, the high byte first (R65, R90). -/
def encodeBytes (i : Instr) : List Byte := [wordHi (encode i), wordLo (encode i)]

/-- The bytes of one assembled line, `none` where the line is ill formed (R99, R100). -/
def AsmItem.bytes : AsmItem → Option (List Byte)
  | .line l => (assemble l).map encodeBytes
  | .dw w => if w < 65536 then some [wordHi (BitVec.ofNat 16 w), wordLo (BitVec.ofNat 16 w)] else none
  | .db b => (asmByte b).map fun v => [v]

/-! ### The opcode map (R94), as data -/

/-- The number of the row of R94 that an instruction is. -/
def Instr.row : Instr → Nat
  | .nop => 1 | .cls => 2 | .ret => 3 | .jp _ => 4 | .call _ => 5 | .seImm _ _ => 6 | .sneImm _ _ => 7
  | .seReg _ _ => 8 | .ldImm _ _ => 9 | .addImm _ _ => 10 | .ldReg _ _ => 11 | .or _ _ => 12 | .and _ _ => 13
  | .xor _ _ => 14 | .addReg _ _ => 15 | .sub _ _ => 16 | .shr _ _ => 17 | .subn _ _ => 18 | .shl _ _ => 19
  | .sneReg _ _ => 20 | .ldI _ => 21 | .jpV0 _ => 22 | .rnd _ _ => 23 | .drw _ _ _ => 24 | .skp _ => 25
  | .sknp _ => 26 | .ldVxDt _ => 27 | .ldVxK _ => 28 | .ldDtVx _ => 29 | .ldStVx _ => 30 | .addI _ => 31
  | .ldF _ => 32 | .ldB _ => 33 | .ldMemVx _ => 34 | .ldVxMem _ => 35

/-- A row of R94: a word `w` is the row's when `w & mask = pattern`. -/
structure OpcodeRow where
  row : Nat
  mask : Word
  pattern : Word
  deriving DecidableEq, Repr

/-- Rows 1 to 20 of R94. -/
def opcodeRowsLow : List OpcodeRow :=
  [⟨1, 0xFFFF, 0x0000⟩, ⟨2, 0xFFFF, 0x00E0⟩, ⟨3, 0xFFFF, 0x00EE⟩, ⟨4, 0xF000, 0x1000⟩, ⟨5, 0xF000, 0x2000⟩,
   ⟨6, 0xF000, 0x3000⟩, ⟨7, 0xF000, 0x4000⟩, ⟨8, 0xF00F, 0x5000⟩, ⟨9, 0xF000, 0x6000⟩, ⟨10, 0xF000, 0x7000⟩,
   ⟨11, 0xF00F, 0x8000⟩, ⟨12, 0xF00F, 0x8001⟩, ⟨13, 0xF00F, 0x8002⟩, ⟨14, 0xF00F, 0x8003⟩, ⟨15, 0xF00F, 0x8004⟩,
   ⟨16, 0xF00F, 0x8005⟩, ⟨17, 0xF00F, 0x8006⟩, ⟨18, 0xF00F, 0x8007⟩, ⟨19, 0xF00F, 0x800E⟩, ⟨20, 0xF00F, 0x9000⟩]

/-- Rows 21 to 35 of R94. -/
def opcodeRowsHigh : List OpcodeRow :=
  [⟨21, 0xF000, 0xA000⟩, ⟨22, 0xF000, 0xB000⟩, ⟨23, 0xF000, 0xC000⟩, ⟨24, 0xF000, 0xD000⟩, ⟨25, 0xF0FF, 0xE09E⟩,
   ⟨26, 0xF0FF, 0xE0A1⟩, ⟨27, 0xF0FF, 0xF007⟩, ⟨28, 0xF0FF, 0xF00A⟩, ⟨29, 0xF0FF, 0xF015⟩, ⟨30, 0xF0FF, 0xF018⟩,
   ⟨31, 0xF0FF, 0xF01E⟩, ⟨32, 0xF0FF, 0xF029⟩, ⟨33, 0xF0FF, 0xF033⟩, ⟨34, 0xF0FF, 0xF055⟩, ⟨35, 0xF0FF, 0xF065⟩]

/-- The complete opcode map (R94), in the table's order. -/
def opcodeTable : List OpcodeRow := opcodeRowsLow ++ opcodeRowsHigh

/-! ### The host's entry point -/

/-- The 16-bit word of a table row's bits (one word an instruction, R90). -/
def tableWord (nbits w : Nat) : Word := BitVec.ofNat 16 (w % 2 ^ nbits)

/-- The instruction the decoder reads from the bytes of a table row's word, the high byte at the lower address. -/
def decodeTableWord (nbits w : Nat) : Option Instr :=
  match decodeBytes [wordHi (tableWord nbits w), wordLo (tableWord nbits w)] with
  | .ok (i, _) => some i
  | .error _ => none

end Sys2Proof
end

