-- ==== Sys2Proof/Machine/Font.lean ====
section
/-! DEFINITION. The font table (spec/20_memory.md R64): 16 glyphs of 5 bytes, glyph `d` at addresses `5·d` to `5·d + 4`.
The bytes are the parameter `FONT` of R8, held as plain data in `State.env`; `fontDefault` is the default table R64 gives,
which the spec marks as general knowledge (PRESUMED, unsafe, log entry 1). No rule depends on the values. -/

namespace Sys2Proof.Machine

/-- A font: 16 glyphs of 5 bytes (R64). -/
abbrev Font := Vector (Vector Byte 5) 16

/-- The default of `FONT` (R64). -/
def fontDefault : Font := #v[
  #v[0xF0, 0x90, 0x90, 0x90, 0xF0],
  #v[0x20, 0x60, 0x20, 0x20, 0x70],
  #v[0xF0, 0x10, 0xF0, 0x80, 0xF0],
  #v[0xF0, 0x10, 0xF0, 0x10, 0xF0],
  #v[0x90, 0x90, 0xF0, 0x10, 0x10],
  #v[0xF0, 0x80, 0xF0, 0x10, 0xF0],
  #v[0xF0, 0x80, 0xF0, 0x90, 0xF0],
  #v[0xF0, 0x10, 0x20, 0x40, 0x40],
  #v[0xF0, 0x90, 0xF0, 0x90, 0xF0],
  #v[0xF0, 0x90, 0xF0, 0x10, 0xF0],
  #v[0xF0, 0x90, 0xF0, 0x90, 0x90],
  #v[0xE0, 0x90, 0xE0, 0x90, 0xE0],
  #v[0xF0, 0x80, 0x80, 0x80, 0xF0],
  #v[0xE0, 0x90, 0x90, 0x90, 0xE0],
  #v[0xF0, 0x80, 0xF0, 0x80, 0xF0],
  #v[0xF0, 0x80, 0xF0, 0x80, 0x80]]

/-- `FONT[a]`: row `a mod 5` of glyph `a div 5`; 0 above address 79, where R61 has 0 at reset. -/
def fontByte (f : Font) (a : Nat) : Byte :=
  if h : a < 80 then (f[a / 5]'(by omega))[a % 5]'(by omega) else 0

/-- `FONT[0]` to `FONT[79]` in address order. -/
def fontBytes (f : Font) : List Byte := (List.range Config.fontSize).map (fontByte f)

end Sys2Proof.Machine
end

