-- ==== Sys2Proof/Machine/Memory.lean ====
section
/-! DEFINITION. Memory as data (spec/20_memory.md R60, R61): a list of (address, byte) pairs, addresses strictly rising and
below 4096, no entry equal to what an unlisted address reads as. The raw access below is under the checked one of
Ops.lean (R67, R68). -/

namespace Sys2Proof.Machine

/-- `MEM` (R30). -/
abbrev Memory := List Host.Cell

/-- What an unlisted address reads as: the reset contents with the default font (R36, R61, R64). -/
def baseByte (a : Nat) : Byte := fontByte fontDefault a

/-- `MEM[a]`. -/
def Memory.read : Memory → Nat → Byte
  | [], a => baseByte a
  | (c, d) :: m, a => if a = c then d else Memory.read m a

/-- The memory without an entry at `a`. -/
def Memory.erase : Memory → Nat → Memory
  | [], _ => []
  | (c, d) :: m, a => if c = a then Memory.erase m a else (c, d) :: Memory.erase m a

/-- The entry `(a, b)` put before the first higher address. -/
def Memory.insert : Memory → Nat → Byte → Memory
  | [], a, b => [(a, b)]
  | (c, d) :: m, a, b => if a < c then (a, b) :: (c, d) :: m else (c, d) :: Memory.insert m a b

/-- `MEM[a] <- b`, keeping the canonical form: a byte equal to the unlisted value takes no entry. -/
def Memory.write (m : Memory) (a : Nat) (b : Byte) : Memory :=
  if b = baseByte a then m.erase a else (m.erase a).insert a b

/-- `MEM[a], MEM[a+1], …` receive the bytes in order. -/
def Memory.writeAll : Memory → Nat → List Byte → Memory
  | m, _, [] => m
  | m, a, b :: bs => Memory.writeAll (m.write a b) (a + 1) bs

/-- The canonical form above the address `lo`: entries strictly rising, inside memory, none equal to the unlisted value. -/
def Memory.wfFrom : Nat → Memory → Bool
  | _, [] => true
  | lo, (c, d) :: m => decide (lo ≤ c) && decide (c < Config.memSize) && decide (d ≠ baseByte c) && Memory.wfFrom (c + 1) m

/-- The canonical form. -/
def Memory.wf (m : Memory) : Bool := Memory.wfFrom 0 m

/-- The memory right after reset under the font `f`: `MEM[0..79] = FONT`, the rest 0 (R36, R270). -/
def Memory.ofFont (f : Font) : Memory := Memory.writeAll [] 0 (fontBytes f)

end Sys2Proof.Machine
end

