-- ==== Sys2Proof/Machine/State.lean ====
section
/-! DEFINITION. The machine's state (spec/10_state.md), plain data, and its value right after reset (R36, R270). -/

namespace Sys2Proof.Machine

/-- `MODE` (R31): the run state of the core. -/
inductive Mode where
  /-- `Running` (0): a step fetches and executes. -/
  | running
  /-- `AwaitingKey` (1): a step only polls the keys (R204). -/
  | awaitingKey
  /-- `Faulted` (2): a step does nothing until reset (R226). -/
  | faulted
  deriving DecidableEq, Repr

/-- `CAUSE` (R33, R221). `Cause.code` gives the 4-bit codes; codes 9 to 15 "never appear", so they have no constructor. -/
inductive Cause where
  /-- 0: no fault since reset. -/
  | none
  /-- 1: the fetched word matches no row. -/
  | invalidOpcode
  /-- 2: `PC + 1 > 4095` at fetch. -/
  | fetchFault
  /-- 3: `CALL` with `SP = 16`. -/
  | stackOverflow
  /-- 4: `RET` with `SP = 0`. -/
  | stackUnderflow
  /-- 5: a data read above 4095. -/
  | memReadFault
  /-- 6: a data write above 4095. -/
  | memWriteFault
  /-- 7: `SKP` or `SKNP` with `V[x] > 15`. -/
  | keyIndexFault
  /-- 8: a data write below 80. -/
  | fontWriteFault
  deriving DecidableEq, Repr

/-- What `raise F(info)` carries (R12, R221): the cause and `FAULT_INFO`. -/
structure Raise where
  cause : Cause
  info : FaultInfo
  deriving DecidableEq, Repr

/-- The six operations of the host interface (R236), as data. -/
inductive HostOp where
  | reset
  | load (bytes : List Byte)
  | step
  | timerTick
  | setKey (k : Nat) (pressed : Bool)
  | readFramebuffer
  deriving DecidableEq, Repr

/-- What an operation gives back to the host: the tone trigger (R240), the result of `load` (R238) and the snapshot of
`read_framebuffer` (R242). -/
inductive Output where
  | toneTrigger
  | loadOk
  | loadTooLarge
  | framebuffer (cells : Framebuffer)
  deriving DecidableEq, Repr

/-- What R34 calls "inputs, outputs or parameters, not state of the core". The model holds them as plain data beside the
core's state, so that one deterministic step covers every agent (log entries 1 to 4). -/
structure Env where
  /-- The schedule of operations the host has queued, next first (R13, R236). Empty: the host calls `step`. -/
  schedule : List HostOp
  /-- Random bytes the environment has queued for `draw_rand()`, next first (R245 "injectable"). -/
  draws : List Byte
  /-- How many draws have found `draws` empty: the argument of the free value `Config.freeDraw`. -/
  drawCount : Nat
  /-- The trace of outputs, oldest first (R240: "A model records each emission in its trace of outputs"). -/
  outputs : List Output
  /-- The parameter `FONT` (R8, R64). -/
  font : Font
  deriving DecidableEq, Repr

/-- The whole machine (R5, R20 to R33), with its environment (R34). -/
structure State where
  /-- `V[0]` to `V[15]` (R20). -/
  v : Vector Byte 16
  /-- `I` (R22). -/
  i : Word
  /-- `PC` (R23). -/
  pc : Word
  /-- `SP`, 0 to 16 (R24). -/
  sp : Fin 17
  /-- `STACK[0]` to `STACK[15]` (R25). -/
  stack : Vector Word 16
  /-- `DT` (R26). -/
  dt : Byte
  /-- `ST` (R27). -/
  st : Byte
  /-- `KEYS` (R28). -/
  keys : KeyLatch
  /-- `FB` (R29). -/
  fb : Framebuffer
  /-- `MEM` (R30). -/
  mem : Memory
  /-- `MODE` (R31). -/
  mode : Mode
  /-- `WAIT_REG` (R32). -/
  waitReg : RegIx
  /-- `CAUSE` (R33). -/
  cause : Cause
  /-- `FAULT_PC` (R33). -/
  faultPc : Word
  /-- `FAULT_OP` (R33). -/
  faultOp : Word
  /-- `FAULT_INFO` (R33). -/
  faultInfo : FaultInfo
  /-- Inputs, outputs and parameters (R34); no reset touches them. -/
  env : Env
  deriving DecidableEq, Repr

/-- Why a step of the model stops outside the spec's own state. There is no such reason: every fault of R221 is taken as
R224 describes it and ends in a NEXT state with `MODE = Faulted`. Nobody raises one, so the type has no constructor. -/
inductive Fault where
  deriving DecidableEq, Repr

/-- Why the model gives no meaning. -/
inductive Refusal where
  /-- Raised by an arm of `exec` whose instruction has no meaning yet. Safe. No arm raises it: all 35 have one. -/
  | notModelled (mnemonic : String)
  deriving DecidableEq, Repr

/-- The environment of a machine nobody has driven yet: nothing queued, nothing emitted, the default font (DESIGN CHOICE,
log entry 3; the font log entry 1). -/
def Env.initial : Env := { schedule := [], draws := [], drawCount := 0, outputs := [], font := fontDefault }

/-- The state after `reset` in an environment (R36, R270): every piece of the core's state at its reset value. -/
def State.resetWith (e : Env) : State where
  v := Vector.replicate 16 0
  i := 0
  pc := BitVec.ofNat 16 Config.progBase
  sp := 0
  stack := Vector.replicate 16 0
  dt := 0
  st := 0
  keys := 0
  fb := Vector.replicate 32 0
  mem := Memory.ofFont e.font
  mode := .running
  waitReg := 0
  cause := .none
  faultPc := 0
  faultOp := 0
  faultInfo := 0
  env := e

/-- The machine right after reset (R36; construction is the same state, R271). -/
def State.reset : State := State.resetWith Env.initial

end Sys2Proof.Machine
end

