-- ==== Sys2Proof/Machine/Operands.lean ====
section
/-! DEFINITION. Every operand form of the instruction set (spec/30_encoding.md R92, spec/42_index_memory.md, heading): a
general register, an immediate (zero-extended where it is wider than its field), the index register plus a constant, and
a key number. -/

namespace Sys2Proof.Machine

/-- `V[x]` (R11, R92): all 16 numbers name a register, none is hard-wired (R20). -/
def State.getV (s : State) (x : RegIx) : Byte := s.v[x.toNat]'(x.isLt)

/-- `V[0]` to `V[x]`, in order: the operand of `LD [I], Vx` (R175). -/
def State.getVs (s : State) (x : RegIx) : List Byte :=
  (List.range (x.toNat + 1)).map fun k => s.getV (BitVec.ofNat 4 k)

/-- `zext_16(nnn)` (R92). -/
def zextAddr (nnn : Imm12) : Word := nnn.zeroExtend 16

/-- `zext_16` of a register operand (R171, R172, R131). -/
def zextByte (b : Byte) : Word := b.zeroExtend 16

/-- The effective address `I + k`, an unbounded sum, never reduced (R71). -/
def State.effAddr (s : State) (k : Nat) : Nat := s.i.toNat + k

/-- Decimal digits of a byte: hundreds, tens, ones (R173). -/
def decimalDigits (b : Byte) : List Byte :=
  [BitVec.ofNat 8 (b.toNat / 100), BitVec.ofNat 8 (b.toNat / 10 % 10), BitVec.ofNat 8 (b.toNat % 10)]

/-- `KEYS[k]` for a key number 0 to 15; above 15 no key is named (R28, R200). -/
def State.keyDown (s : State) (k : Nat) : Bool := s.keys.getLsbD k

/-- "scan keys low-to-high": the least pressed key, if any (R203). -/
def State.lowestKey (s : State) : Option Nat := (List.range 16).find? s.keyDown

/-- Whether the cell in column `cx` and row `cy` is lit (R190). -/
def fbCell (f : Framebuffer) (cx : Fin 64) (cy : Fin 32) : Bool := f[cy].getLsbD cx.val

/-- `FB[i]`, the cell at position `i = cy * 64 + cx` (R29, R242). -/
def fbBit (f : Framebuffer) (i : Fin 2048) : Bool :=
  fbCell f ⟨i.val % 64, by omega⟩ ⟨i.val / 64, by omega⟩

/-- The cell `(cx, cy)` of the machine's framebuffer (R29). -/
def State.cell (s : State) (cx : Fin 64) (cy : Fin 32) : Bool := fbCell s.fb cx cy

end Sys2Proof.Machine
end

