-- ==== Sys2Proof/Machine/Flags.lean ====
section
/-! DEFINITION. The flag computations (spec/41_alu.md R140; spec/43_display.md R192 for the collision flag), each a
function of the operands, and the byte a flag is written as: 0 or 1, upper 7 bits 0 (R140). -/

namespace Sys2Proof.Machine

/-- A flag as the 8-bit value `V[15]` receives (R140). -/
def flagByte (f : Bool) : Byte := if f then 1 else 0

/-- Carry out of bit 7: 1 if `a + b > 255` (R148). -/
def carryFlag (a b : Byte) : Bool := decide (255 < a.toNat + b.toNat)

/-- "1 if no borrow occurred" in `a − b`: `a >= b` (R149, R151). -/
def noBorrowFlag (a b : Byte) : Bool := decide (b.toNat ≤ a.toNat)

/-- The bit `SHR` shifts out: bit 0 before the shift (R150). -/
def shrFlag (a : Byte) : Bool := a.getLsbD 0

/-- The bit `SHL` shifts out: bit 7 before the shift (R152). -/
def shlFlag (a : Byte) : Bool := a.getLsbD 7

end Sys2Proof.Machine
end

