-- ==== Sys2Proof/Machine/Ops.lean ====
section
/-! DEFINITION. The named operations the meanings are written over: register writes, the checked memory accesses (R66 to
R68, R174), the stack (R121, R122), taking a fault (R224) and the way out of an instruction, the random draw (R245), the
output trace (R240) and the wait for a key (R203, R204). There is no return from a fault: only `reset` leaves `Faulted`
(R226), and it stands in HostOps.lean. -/

namespace Sys2Proof.Machine

/-! ### Register writes -/

/-- `V[x] <- b` (R11). -/
def State.setV (s : State) (x : RegIx) (b : Byte) : State := { s with v := s.v.set x.toNat b x.isLt }

/-- `V[15] <- 1` or `0` (R21, R140). -/
def State.setFlag (s : State) (f : Bool) : State := s.setV 15 (flagByte f)

/-- `V[k] <- b` for the bytes of a list, from register `k` up (R176). -/
def State.setVs : State → Nat → List Byte → State
  | s, _, [] => s
  | s, k, b :: bs => State.setVs (s.setV (BitVec.ofNat 4 k) b) (k + 1) bs

/-- `I <- w` (R22). -/
def State.setI (s : State) (w : Word) : State := { s with i := w }

/-- `PC <- w` (R11). -/
def State.setPc (s : State) (w : Word) : State := { s with pc := w }

/-- The step's `PC <- pc0 + 2` (R120). -/
def State.advance (s : State) : State := s.setPc (s.pc + 2)

/-- `if c: PC <- PC + 2`, after the advance (R127: by 4 in all when it holds, by 2 otherwise). -/
def State.skipIf (s : State) (c : Bool) : State := if c then s.setPc (s.pc + 2) else s

/-- `DT <- b` (R26). -/
def State.setDt (s : State) (b : Byte) : State := { s with dt := b }

/-- `ST <- b` (R27). -/
def State.setSt (s : State) (b : Byte) : State := { s with st := b }

/-- The key latch, written by the host alone (R28). -/
def State.setKeys (s : State) (k : KeyLatch) : State := { s with keys := k }

/-- The framebuffer as a whole (R29). -/
def State.setFb (s : State) (f : Framebuffer) : State := { s with fb := f }

/-- Memory as a whole (R30). -/
def State.setMem (s : State) (m : Memory) : State := { s with mem := m }

/-- The stack pointer and the stack (R24, R25). -/
def State.setStack (s : State) (sp : Fin 17) (st : Vector Word 16) : State := { s with sp := sp, stack := st }

/-- The environment (R34). -/
def State.setEnv (s : State) (e : Env) : State := { s with env := e }

/-! ### Taking a fault (R220, R224, R225) -/

/-- The 4-bit code of a cause (R221, D7). -/
def Cause.code : Cause → BitVec 4
  | .none => 0
  | .invalidOpcode => 1
  | .fetchFault => 2
  | .stackOverflow => 3
  | .stackUnderflow => 4
  | .memReadFault => 5
  | .memWriteFault => 6
  | .keyIndexFault => 7
  | .fontWriteFault => 8

/-- The 2-bit code of a mode (R31). -/
def Mode.code : Mode → BitVec 2
  | .running => 0
  | .awaitingKey => 1
  | .faulted => 2

/-- `raise F(info)` with a number as the information (R12, R221). -/
def raise (c : Cause) (info : Nat) : Raise := { cause := c, info := BitVec.ofNat 17 info }

/-- Fault entry (R224) from the state BEFORE the step, so that everything else, `PC` among it, is as it was (R225). `op` is
the faulting word, 0 for a fetch fault. -/
def State.enterFault (s : State) (r : Raise) (op : Word) : State :=
  { s with cause := r.cause, faultPc := s.pc, faultOp := op, faultInfo := r.info, mode := .faulted }

/-- How an instruction that may raise ends (R120): "If anything raises, the step makes no change" but fault entry; else the
state its effects give. `s` is the state before the step and `i` the instruction. -/
def finish (i : Instr) (s : State) : Except Raise State → Host.Outcome State Fault Refusal
  | .ok t => .next t
  | .error r => .next (s.enterFault r (encode i))

/-! ### Checked memory accesses (R66 to R68, R174) -/

/-- The check of `MemRead(addr, 1)` (R67): the fault it raises, if any. -/
def readCheck (addr : Nat) : Option Raise :=
  if 4095 < addr then some (raise .memReadFault addr) else none

/-- The check of `MemWrite(addr, 1, v)` (R68): the fault it raises, if any. -/
def writeCheck (addr : Nat) : Option Raise :=
  if 4095 < addr then some (raise .memWriteFault addr)
  else if addr < 80 then some (raise .fontWriteFault addr)
  else none

/-- `MemRead(addr, 1)` (R67). -/
def State.memRead (s : State) (addr : Nat) : Except Raise Byte :=
  match readCheck addr with
  | some r => .error r
  | none => .ok (s.mem.read addr)

/-- `MemWrite(addr, 1, v)` (R68). -/
def State.memWrite (s : State) (addr : Nat) (b : Byte) : Except Raise State :=
  match writeCheck addr with
  | some r => .error r
  | none => .ok (s.setMem (s.mem.write addr b))

/-- The fault of the first of `n` consecutive addresses that fails a check, in ascending order (R174). -/
def firstFailing (check : Nat → Option Raise) (base n : Nat) : Option Raise :=
  (List.range n).findSome? fun k => check (base + k)

/-- Check every address, then read `n` bytes from `base` up (R174). -/
def State.loadBytes (s : State) (base n : Nat) : Except Raise (List Byte) :=
  match firstFailing readCheck base n with
  | some r => .error r
  | none => .ok ((List.range n).map fun k => s.mem.read (base + k))

/-- Check every address, then store the bytes from `base` up (R174). -/
def State.storeBytes (s : State) (base : Nat) (bytes : List Byte) : Except Raise State :=
  match firstFailing writeCheck base bytes.length with
  | some r => .error r
  | none => .ok (s.setMem (s.mem.writeAll base bytes))

/-- `Fetch(PC)` (R66): two bytes, big-endian, at any address 0 to 4094. -/
def State.fetch (s : State) : Except Raise Word :=
  if 4095 < s.pc.toNat + 1 then .error (raise .fetchFault s.pc.toNat)
  else .ok (wordOfBytes (s.mem.read s.pc.toNat) (s.mem.read (s.pc.toNat + 1)))

/-! ### The call stack (R121, R122) -/

/-- `Push(v)` (R121). -/
def State.push (s : State) (w : Word) : Except Raise State :=
  if h : s.sp.val < 16 then .ok (s.setStack ⟨s.sp.val + 1, by omega⟩ (s.stack.set s.sp.val w h))
  else .error (raise .stackOverflow s.sp.val)

/-- `Pop()` (R122): the entry is not cleared. -/
def State.pop (s : State) : Except Raise (Word × State) :=
  if h : s.sp.val = 0 then .error (raise .stackUnderflow s.sp.val)
  else .ok (s.stack[s.sp.val - 1]'(by omega), s.setStack ⟨s.sp.val - 1, by omega⟩ s.stack)

/-! ### Random draws and outputs (R240, R245) -/

/-- `draw_rand()` (R245): the next byte the environment has queued; where it queued none, a free value no proof can know. -/
def State.drawRand (s : State) : Byte × State :=
  match s.env.draws with
  | b :: bs => (b, s.setEnv { s.env with draws := bs })
  | [] => (Config.freeDraw s.env.drawCount, s.setEnv { s.env with drawCount := s.env.drawCount + 1 })

/-- `emit`: the event joins the trace of outputs (R240). -/
def State.emit (s : State) (o : Output) : State := s.setEnv { s.env with outputs := s.env.outputs ++ [o] }

/-! ### The wait for a key (R203, R204) -/

/-- Enter the wait: `PC` at the waiting instruction, `WAIT_REG <- x`, `MODE <- AwaitingKey` (R203). -/
def State.awaitKey (s : State) (x : RegIx) : State := { s with waitReg := x, mode := .awaitingKey }

/-- Leave the wait with a key: `V[WAIT_REG] <- k; PC <- PC + 2; MODE <- Running` (R204). -/
def State.wake (s : State) (k : Nat) : State :=
  { (s.setV s.waitReg (BitVec.ofNat 8 k)).advance with mode := .running }

/-- The waiting step (R204): it neither fetches nor decodes and cannot fault. -/
def State.pollKey (s : State) : State :=
  match s.lowestKey with
  | some k => s.wake k
  | none => s

end Sys2Proof.Machine
end

