-- ==== Sys2Proof/Machine/Alu.lean ====
section
/-! DEFINITION. Register loads, arithmetic, logic, shifts and the random byte (spec/41_alu.md R140 to R154). Where a flag is
written the two writes stand in the order of R141, the second seeing the first (D12, log entry 10). -/

namespace Sys2Proof.Machine

/-- `LD Vx, nn` (R142). -/
def execLdImm (x : RegIx) (nn : Byte) (s : State) : Host.Outcome State Fault Refusal :=
  .next (s.advance.setV x nn)

/-- `ADD Vx, nn` (R143): wraps, no flag. -/
def execAddImm (x : RegIx) (nn : Byte) (s : State) : Host.Outcome State Fault Refusal :=
  .next (s.advance.setV x (s.getV x + nn))

/-- `LD Vx, Vy` (R144). -/
def execLdReg (x y : RegIx) (s : State) : Host.Outcome State Fault Refusal :=
  .next (s.advance.setV x (s.getV y))

/-- `OR Vx, Vy` (R145): `V[15]` is not written (D14). -/
def execOr (x y : RegIx) (s : State) : Host.Outcome State Fault Refusal :=
  .next (s.advance.setV x (s.getV x ||| s.getV y))

/-- `AND Vx, Vy` (R146): `V[15]` is not written (D14). -/
def execAnd (x y : RegIx) (s : State) : Host.Outcome State Fault Refusal :=
  .next (s.advance.setV x (s.getV x &&& s.getV y))

/-- `XOR Vx, Vy` (R147): `V[15]` is not written (D14). -/
def execXor (x y : RegIx) (s : State) : Host.Outcome State Fault Refusal :=
  .next (s.advance.setV x (s.getV x ^^^ s.getV y))

/-- `ADD Vx, Vy` (R148): the sum, then the carry. -/
def execAddReg (x y : RegIx) (s : State) : Host.Outcome State Fault Refusal :=
  .next ((s.advance.setV x (s.getV x + s.getV y)).setFlag (carryFlag (s.getV x) (s.getV y)))

/-- `SUB Vx, Vy` (R149): the difference, then "no borrow". -/
def execSub (x y : RegIx) (s : State) : Host.Outcome State Fault Refusal :=
  .next ((s.advance.setV x (s.getV x - s.getV y)).setFlag (noBorrowFlag (s.getV x) (s.getV y)))

/-- Flag first, then `V[x] <- V[x] >> 1`, which reads `V[x]` after the flag write (R141, R150). -/
def shiftRight (x : RegIx) (s : State) : State :=
  let t := s.setFlag (shrFlag (s.getV x))
  t.setV x (t.getV x >>> 1)

/-- Flag first, then `V[x] <- (V[x] << 1) mod 256`, which reads `V[x]` after the flag write (R141, R152). -/
def shiftLeft (x : RegIx) (s : State) : State :=
  let t := s.setFlag (shlFlag (s.getV x))
  t.setV x (t.getV x <<< 1)

/-- `SHR Vx` (R150): `y` selects no operand. -/
def execShr (x _y : RegIx) (s : State) : Host.Outcome State Fault Refusal :=
  .next (shiftRight x s.advance)

/-- `SUBN Vx, Vy` (R151): the reverse difference, then "no borrow". -/
def execSubn (x y : RegIx) (s : State) : Host.Outcome State Fault Refusal :=
  .next ((s.advance.setV x (s.getV y - s.getV x)).setFlag (noBorrowFlag (s.getV y) (s.getV x)))

/-- `SHL Vx` (R152): `y` selects no operand. -/
def execShl (x _y : RegIx) (s : State) : Host.Outcome State Fault Refusal :=
  .next (shiftLeft x s.advance)

/-- `RND Vx, nn` (R153): exactly one draw. -/
def execRnd (x : RegIx) (nn : Byte) (s : State) : Host.Outcome State Fault Refusal :=
  .next (s.advance.drawRand.2.setV x (s.advance.drawRand.1 &&& nn))

end Sys2Proof.Machine
end

