-- ==== Sys2Proof/Machine/Display.lean ====
section
/-! DEFINITION. Display instructions (spec/43_display.md R190 to R193). `DRW` is the loop of R192 over rows and columns, on
the framebuffer and the collision flag so far. -/

namespace Sys2Proof.Machine

/-- The framebuffer and whether a lit cell has been turned off so far (`hit` of R192). -/
structure Canvas where
  fb : Framebuffer
  hit : Bool
  deriving DecidableEq, Repr

/-- `if FB[cell] = 1: hit <- 1; FB[cell] <- FB[cell] ^ 1` for the cell `(cx, cy)` (R192). -/
def Canvas.toggle (c : Canvas) (cx : Fin 64) (cy : Fin 32) : Canvas :=
  { fb := c.fb.set cy.val (c.fb[cy] ^^^ BitVec.twoPow 64 cx.val) cy.isLt, hit := c.hit || fbCell c.fb cx cy }

/-- The column that sprite column `col` lands on, modulo 64 (R190, R192). -/
def pixelColumn (xo col : Nat) : Fin 64 := ⟨(xo + col) % 64, Nat.mod_lt _ (by decide)⟩

/-- The row that sprite row `row` lands on, modulo 32 (R190, R192). -/
def pixelRow (yo row : Nat) : Fin 32 := ⟨(yo + row) % 32, Nat.mod_lt _ (by decide)⟩

/-- One sprite row: for `col = 0 .. 7`, most significant bit first (R192). -/
def Canvas.drawRow (xo yo row : Nat) (b : Byte) (c : Canvas) : Canvas :=
  (List.range 8).foldl
    (fun c col => if b.getLsbD (7 - col) then c.toggle (pixelColumn xo col) (pixelRow yo row) else c) c

/-- The rows of a sprite from row `row` down (R192). -/
def Canvas.drawRows (xo yo : Nat) : Nat → List Byte → Canvas → Canvas
  | _, [], c => c
  | row, b :: bs, c => Canvas.drawRows xo yo (row + 1) bs (Canvas.drawRow xo yo row b c)

/-- `CLS` (R191): all 2048 cells 0; `V[15]` is not written. -/
def execCls (s : State) : Host.Outcome State Fault Refusal := .next (s.advance.setFb (Vector.replicate 32 0))

/-- The sprite drawn and the collision flag written last (R192, D13): the origins are the values before the instruction. -/
def State.drawSprite (s : State) (x y : RegIx) (sprite : List Byte) : State :=
  let c := Canvas.drawRows (s.getV x).toNat (s.getV y).toNat 0 sprite { fb := s.fb, hit := false }
  (s.setFb c.fb).setFlag c.hit

/-- `DRW Vx, Vy, n` (R192): with `n = 0` it reads nothing, draws nothing and cannot fault. -/
def execDrw (x y : RegIx) (n : BitVec 4) (s : State) : Host.Outcome State Fault Refusal :=
  finish (.drw x y n) s ((s.loadBytes (s.effAddr 0) n.toNat).map fun sprite => s.advance.drawSprite x y sprite)

end Sys2Proof.Machine
end

