-- ==== Sys2Proof/Machine/Flow.lean ====
section
/-! DEFINITION. The control-flow instructions (spec/40_flow.md R123 to R131). A meaning gets the state before the step and
does the step's `PC <- pc0 + 2` itself (`advance`, R120), so that a fault is taken from that very state (log entry 5). -/

namespace Sys2Proof.Machine

/-- `NOP` (R123): the only effect is the advance. -/
def execNop (s : State) : Host.Outcome State Fault Refusal := .next s.advance

/-- `RET` (R124): `PC <- Pop()`. -/
def execRet (s : State) : Host.Outcome State Fault Refusal :=
  finish .ret s (s.advance.pop.map fun p => p.2.setPc p.1)

/-- `JP nnn` (R125). -/
def execJp (nnn : Imm12) (s : State) : Host.Outcome State Fault Refusal :=
  .next (s.advance.setPc (zextAddr nnn))

/-- `CALL nnn` (R126): `Push(PC)`, the advanced `PC`, then the jump. -/
def execCall (nnn : Imm12) (s : State) : Host.Outcome State Fault Refusal :=
  finish (.call nnn) s ((s.advance.push s.advance.pc).map fun t => t.setPc (zextAddr nnn))

/-- `SE Vx, nn` (R127). -/
def execSeImm (x : RegIx) (nn : Byte) (s : State) : Host.Outcome State Fault Refusal :=
  .next (s.advance.skipIf (s.getV x == nn))

/-- `SNE Vx, nn` (R128). -/
def execSneImm (x : RegIx) (nn : Byte) (s : State) : Host.Outcome State Fault Refusal :=
  .next (s.advance.skipIf (s.getV x != nn))

/-- `SE Vx, Vy` (R129). -/
def execSeReg (x y : RegIx) (s : State) : Host.Outcome State Fault Refusal :=
  .next (s.advance.skipIf (s.getV x == s.getV y))

/-- `SNE Vx, Vy` (R130). -/
def execSneReg (x y : RegIx) (s : State) : Host.Outcome State Fault Refusal :=
  .next (s.advance.skipIf (s.getV x != s.getV y))

/-- `JP V0, nnn` (R131): always `V[0]`, no masking to 12 bits. -/
def execJpV0 (nnn : Imm12) (s : State) : Host.Outcome State Fault Refusal :=
  .next (s.advance.setPc (zextAddr nnn + zextByte (s.getV 0)))

end Sys2Proof.Machine
end

