-- ==== Sys2Proof/Machine/IndexMemory.lean ====
section
/-! DEFINITION. Index-register and memory instructions (spec/42_index_memory.md R170 to R176). All checks come before the
first write (R174); the block transfers leave `I` unchanged (D15). -/

namespace Sys2Proof.Machine

/-- `LD I, nnn` (R170). -/
def execLdI (nnn : Imm12) (s : State) : Host.Outcome State Fault Refusal :=
  .next (s.advance.setI (zextAddr nnn))

/-- `ADD I, Vx` (R171): wraps at 16 bits, no flag. -/
def execAddI (x : RegIx) (s : State) : Host.Outcome State Fault Refusal :=
  .next (s.advance.setI (s.i + zextByte (s.getV x)))

/-- `LD F, Vx` (R172): the whole byte times 5, unmasked (D16). -/
def execLdF (x : RegIx) (s : State) : Host.Outcome State Fault Refusal :=
  .next (s.advance.setI (zextByte (s.getV x) * BitVec.ofNat 16 Config.glyphBytes))

/-- `LD B, Vx` (R173). -/
def execLdB (x : RegIx) (s : State) : Host.Outcome State Fault Refusal :=
  finish (.ldB x) s (s.advance.storeBytes (s.effAddr 0) (decimalDigits (s.getV x)))

/-- `LD [I], Vx` (R175). -/
def execLdMemVx (x : RegIx) (s : State) : Host.Outcome State Fault Refusal :=
  finish (.ldMemVx x) s (s.advance.storeBytes (s.effAddr 0) (s.getVs x))

/-- `LD Vx, [I]` (R176). -/
def execLdVxMem (x : RegIx) (s : State) : Host.Outcome State Fault Refusal :=
  finish (.ldVxMem x) s ((s.loadBytes (s.effAddr 0) (x.toNat + 1)).map fun bs => s.advance.setVs 0 bs)

end Sys2Proof.Machine
end

