-- ==== Sys2Proof/Machine/KeypadTimers.lean ====
section
/-! DEFINITION. Keypad and timer instructions (spec/44_keypad_timers.md R200 to R207). -/

namespace Sys2Proof.Machine

/-- The key test of `SKP` and `SKNP`: the whole register is the index, above 15 it faults (R200, R201, D10). -/
def State.keyTest (s : State) (x : RegIx) : Except Raise Bool :=
  if 15 < (s.getV x).toNat then .error (raise .keyIndexFault (s.getV x).toNat)
  else .ok (s.keyDown (s.getV x).toNat)

/-- `SKP Vx` (R200). -/
def execSkp (x : RegIx) (s : State) : Host.Outcome State Fault Refusal :=
  finish (.skp x) s ((s.keyTest x).map fun down => s.advance.skipIf down)

/-- `SKNP Vx` (R201). -/
def execSknp (x : RegIx) (s : State) : Host.Outcome State Fault Refusal :=
  finish (.sknp x) s ((s.keyTest x).map fun down => s.advance.skipIf (!down))

/-- `LD Vx, DT` (R202). -/
def execLdVxDt (x : RegIx) (s : State) : Host.Outcome State Fault Refusal :=
  .next (s.advance.setV x s.dt)

/-- `LD Vx, K` (R203): the least pressed key at once, or the wait, with `PC` back at this instruction. -/
def execLdVxK (x : RegIx) (s : State) : Host.Outcome State Fault Refusal :=
  match s.lowestKey with
  | some k => .next (s.advance.setV x (BitVec.ofNat 8 k))
  | none => .next ((s.advance.setPc (s.advance.pc - 2)).awaitKey x)

/-- `LD DT, Vx` (R205). -/
def execLdDtVx (x : RegIx) (s : State) : Host.Outcome State Fault Refusal :=
  .next (s.advance.setDt (s.getV x))

/-- `LD ST, Vx` (R206): the instruction itself emits nothing. -/
def execLdStVx (x : RegIx) (s : State) : Host.Outcome State Fault Refusal :=
  .next (s.advance.setSt (s.getV x))

end Sys2Proof.Machine
end

