-- ==== Sys2Proof/Machine/HostOps.lean ====
section
/-! DEFINITION. The operations of the host interface (spec/60_exceptions.md R236 to R247): the instruction step (R120), the
timer unit (R239), the key mutator (R241), `load` (R238), `reset` (R270) and the read-only operations (R242, R243). Each is
atomic (R247) and acts in every `MODE` (R227). -/

namespace Sys2Proof.Machine

/-- One instruction in `MODE = Running`: fetch, decode, execute (R120), faults in the order of R223. -/
def State.runInstruction (s : State) : Host.Outcome State Fault Refusal :=
  match s.fetch with
  | .error r => .next (s.enterFault r 0)
  | .ok w =>
    match decodeWord w with
    | none => .next (s.enterFault (raise .invalidOpcode w.toNat) w)
    | some i => exec i s

/-- The operation `step` (R120): one instruction, one key poll, or nothing. -/
def State.instructionStep (s : State) : Host.Outcome State Fault Refusal :=
  match s.mode with
  | .faulted => .next s
  | .awaitingKey => .next s.pollKey
  | .running => s.runInstruction

/-- A timer counts down to 0 and stays there (R239). -/
def countDown (b : Byte) : Byte := if b = 0 then 0 else b - 1

/-- `timer_tick` (R239): both timers count down; the tick that takes `ST` from 1 to 0 emits the tone trigger (R240). -/
def State.timerTick (s : State) : State :=
  if s.st = 1 then ((s.setDt (countDown s.dt)).setSt 0).emit .toneTrigger
  else (s.setDt (countDown s.dt)).setSt (countDown s.st)

/-- `set_key(k, pressed)` (R241): an index above 15 changes nothing and reports nothing. -/
def State.setKey (s : State) (k : Nat) (pressed : Bool) : State :=
  if 15 < k then s
  else if pressed then s.setKeys (s.keys ||| BitVec.twoPow 16 k)
  else s.setKeys (s.keys &&& ~~~(BitVec.twoPow 16 k))

/-- `load(bytes)` (R238): the bytes from address 512 up, or `LoadTooLarge` and no change. -/
def State.load (s : State) (bytes : List Byte) : State :=
  if Config.maxProgLen < bytes.length then s.emit .loadTooLarge
  else (s.setMem (s.mem.writeAll Config.progBase bytes)).emit .loadOk

/-- `read_framebuffer` (R242): the 2048 bits as they are, nothing changed. -/
def State.readFramebuffer (s : State) : State := s.emit (.framebuffer s.fb)

/-- `reset` (R270): every piece of the core's state at its reset value, "without discarding external references to it". -/
def State.hostReset (s : State) : State := State.resetWith s.env

/-- What the host may read between operations (R243). -/
structure Status where
  mode : Mode
  cause : Cause
  faultPc : Word
  faultOp : Word
  faultInfo : FaultInfo
  deriving DecidableEq, Repr

/-- The read-only status (R243). -/
def State.status (s : State) : Status :=
  { mode := s.mode, cause := s.cause, faultPc := s.faultPc, faultOp := s.faultOp, faultInfo := s.faultInfo }

/-- One operation of the interface (R236). -/
def State.operate (s : State) : HostOp → Host.Outcome State Fault Refusal
  | .reset => .next s.hostReset
  | .load bytes => .next (s.load bytes)
  | .step => s.instructionStep
  | .timerTick => .next s.timerTick
  | .setKey k pressed => .next (s.setKey k pressed)
  | .readFramebuffer => .next s.readFramebuffer

/-- The schedule with its first operation taken off. -/
def State.withSchedule (s : State) (ops : List HostOp) : State := s.setEnv { s.env with schedule := ops }

/-- The machine's next operation (R13, R244): the one the host has queued first; with nothing queued the host calls `step`. -/
def State.nextOperation (s : State) : Host.Outcome State Fault Refusal :=
  match s.env.schedule with
  | [] => s.instructionStep
  | op :: ops => (s.withSchedule ops).operate op

/-- The two bytes of `w` stored at `PC` as they lie in memory (R65), below the font check, the core `Running` and nothing
queued: what the next step fetches and runs. -/
def State.placeWord (s : State) (w : Word) : State :=
  { s with
    mem := s.mem.writeAll s.pc.toNat [wordHi w, wordLo w]
    mode := .running
    env := { s.env with schedule := [] } }

end Sys2Proof.Machine
end

