-- ==== Sys2Proof/Machine/Step.lean ====
section
/-! DEFINITION. One step of the machine: the next operation of the schedule (spec/00_scope.md R13, spec/60_exceptions.md
R244), an instruction step when none is queued. -/

namespace Sys2Proof.Machine

/-- One step. -/
def step (s : State) : Host.Outcome State Fault Refusal := s.nextOperation

/-- `s` with the instruction whose bits are `w` stored where `step` fetches its next instruction, as the next thing to run. -/
def State.withFetchWord (s : State) (nbits w : Nat) : State := s.placeWord (tableWord nbits w)

end Sys2Proof.Machine
end

