-- ==== Sys2Proof/Safety.lean ====
section
/-! DEFINITION. What counts as a safe run, in the spec's own terms: the end of a run (spec/70_reset_and_hazards.md R274),
the host's protocol (spec/60_exceptions.md R246) and the invariants of spec/10_state.md R37. -/

namespace Sys2Proof.Machine

/-- A run has gone wrong (R274). -/
def State.goneWrong (s : State) : Bool := s.mode = .faulted

/-- A run has ended normally (R274): `Running`, `PC <= 4094`, and the word at `PC` is `JP PC`. -/
def State.endedNormally (s : State) : Prop :=
  s.mode = .running ∧ ∃ nnn : Imm12, s.fetch = .ok (encode (.jp nnn)) ∧ zextAddr nnn = s.pc

/-- A state that waits on the host (R274): neither ended nor gone wrong. -/
def State.waiting (s : State) : Bool := decide (s.mode = .awaitingKey) && s.lowestKey.isNone

/-- The host's protocol (R246): after a reset at most one accepted `load`, and none once a `step` has run. `loaded` and
`stepped` say what has happened since the last reset. -/
def protocolFrom : Bool → Bool → List HostOp → Bool
  | _, _, [] => true
  | _, _, .reset :: ops => protocolFrom false false ops
  | loaded, stepped, .load bytes :: ops =>
    !loaded && !stepped && protocolFrom (decide (bytes.length ≤ Config.maxProgLen)) stepped ops
  | loaded, _, .step :: ops => protocolFrom loaded true ops
  | loaded, stepped, .timerTick :: ops => protocolFrom loaded stepped ops
  | loaded, stepped, .setKey _ _ :: ops => protocolFrom loaded stepped ops
  | loaded, stepped, .readFramebuffer :: ops => protocolFrom loaded stepped ops

/-- A schedule a host may queue for a core just reset (R246, R273). -/
def scheduleLegal (ops : List HostOp) : Bool := protocolFrom false false ops

/-- The invariants of R37, with what they need to be kept by every step: memory's canonical form, and `PC <= 4094` while
waiting (the address of the fetched `LD Vx, K`, R203). -/
structure State.Inv (s : State) : Prop where
  /-- The memory is in canonical form. -/
  memWf : s.mem.wf = true
  /-- `MEM[0..79] = FONT`. -/
  font : ∀ a, a < 80 → s.mem.read a = fontByte s.env.font a
  /-- `PC <= 4350`. -/
  pcBound : s.pc.toNat ≤ 4350
  /-- While waiting, `PC` is the address of a fetched instruction. -/
  waitPc : s.mode = .awaitingKey → s.pc.toNat ≤ 4094
  /-- Every live stack entry is at most 4096. -/
  liveStack : ∀ k, (h : k < 16) → k < s.sp.val → (s.stack[k]'h).toNat ≤ 4096
  /-- `MODE = Faulted` exactly when `CAUSE` is not 0. -/
  faultedIff : s.mode = .faulted ↔ s.cause ≠ .none

end Sys2Proof.Machine
end

