-- ==== Sys2Proof/Certificates/Slice0/Obligations.lean ====
section
/-! DEFINITION. The statements for the provers. Each is about every state, every font and every schedule it does not fix.
Where a statement rests on a choice the spec marks as its own (a `[decision: …]` or `[derived: …]` of a rule) its docstring
names it. A frame is written `t = { s with f := t.f, … }`: every field not named is unchanged, memory and the environment
among them. -/

namespace Sys2Proof.Claims

open Sys2Proof.Machine

/-- The machine's next operation is `step` (R120, R236), performed on `u`: nothing is queued and `u` is `s`, or the host has
queued `step` first and `u` is `s` with it taken off the schedule (log entry 4). -/
def AtStep (s u : State) : Prop :=
  (s.env.schedule = [] ∧ u = s) ∨
  ∃ ops, s.env.schedule = .step :: ops ∧ u = { s with env := { s.env with schedule := ops } }

/-- The number `n` is the word of `i`, for the decoder and for the encoder. -/
def HasWord (i : Instr) (n : Nat) : Prop := decodeWord (BitVec.ofNat 16 n) = some i ∧ encode i = BitVec.ofNat 16 n

/-- `i` takes the fault `c` with the information `info` (R224): everything else, `PC` and memory among it, as before. The
word recorded is the instruction's own (log entry 6). -/
def TakesFault (i : Instr) (s : State) (c : Cause) (info : Nat) : Prop :=
  exec i s = .next { s with mode := .faulted, cause := c, faultPc := s.pc, faultOp := encode i,
                            faultInfo := BitVec.ofNat 17 info }

/-- The causes an instruction may raise at execute (the table of R222). -/
def executeFaults : Instr → List Cause
  | .call _ => [.stackOverflow]
  | .ret => [.stackUnderflow]
  | .drw _ _ n => if n = 0 then [] else [.memReadFault]
  | .ldVxMem _ => [.memReadFault]
  | .ldB _ => [.memWriteFault, .fontWriteFault]
  | .ldMemVx _ => [.memWriteFault, .fontWriteFault]
  | .skp _ => [.keyIndexFault]
  | .sknp _ => [.keyIndexFault]
  | _ => []

/-- The general registers an instruction may write: the rows `V[x]`, `V[0..x]` and `V[15]` as flag of the "written by"
column of R38. -/
def writesRegister (r : RegIx) : Instr → Bool
  | .ldImm x _ | .addImm x _ | .rnd x _ => r = x
  | .ldReg x _ | .or x _ | .and x _ | .xor x _ => r = x
  | .addReg x _ | .sub x _ | .shr x _ | .subn x _ | .shl x _ => r = x ∨ r = 15
  | .ldVxDt x | .ldVxK x => r = x
  | .ldVxMem x => r.toNat ≤ x.toNat
  | .drw _ _ _ => r = 15
  | .nop | .cls | .ret | .jp _ | .call _ | .jpV0 _ | .seImm _ _ | .sneImm _ _ | .seReg _ _ | .sneReg _ _ => false
  | .skp _ | .sknp _ | .ldDtVx _ | .ldStVx _ | .ldI _ | .addI _ | .ldF _ | .ldB _ | .ldMemVx _ => false

/-- The illegal words of the table of R96, by major opcode. -/
def illegalByR96 (w : Word) : Prop :=
  (nibble1 w = 0x0 ∧ w ≠ 0x0000 ∧ w ≠ 0x00E0 ∧ w ≠ 0x00EE) ∨
  (nibble1 w = 0x5 ∧ fieldN w ≠ 0) ∨
  (nibble1 w = 0x8 ∧ fieldN w ∈ [0x8#4, 0x9#4, 0xA#4, 0xB#4, 0xC#4, 0xD#4, 0xF#4]) ∨
  (nibble1 w = 0x9 ∧ fieldN w ≠ 0) ∨
  (nibble1 w = 0xE ∧ fieldNN w ∉ [0x9E#8, 0xA1#8]) ∨
  (nibble1 w = 0xF ∧ fieldNN w ∉ [0x07#8, 0x0A#8, 0x15#8, 0x18#8, 0x1E#8, 0x29#8, 0x33#8, 0x55#8, 0x65#8])

/-- `Push` of each word of a list in order (R121). -/
def pushAll : State → List Word → Except Raise State
  | s, [] => .ok s
  | s, w :: ws => (s.push w).bind fun t => pushAll t ws

/-- `n` times `Pop`, the words in the order they come (R122). -/
def popAll : Nat → State → Except Raise (List Word × State)
  | 0, s => .ok ([], s)
  | n + 1, s => s.pop.bind fun p => (popAll n p.2).map fun q => (p.1 :: q.1, q.2)

/-- Row `r` of the sprite at `I`: `MEM[I + r]` (R192). -/
def spriteByte (s : State) (r : Nat) : Byte := s.mem.read (s.i.toNat + r)

/-- Some bit of the `n`-row sprite at `I` that is 1 lands on the cell `(cx, cy)` when drawn from `(V[x], V[y])`: both
coordinates wrap (R192). -/
def SpriteCovers (s : State) (x y : RegIx) (n : Nat) (cx : Fin 64) (cy : Fin 32) : Prop :=
  ∃ row col, row < n ∧ col < 8 ∧ (spriteByte s row).getLsbD (7 - col) = true ∧
    ((s.getV x).toNat + col) % 64 = cx.val ∧ ((s.getV y).toNat + row) % 32 = cy.val

/-- Every address of the block is in memory. -/
def Readable (s : State) (n : Nat) : Prop := ∀ k, k < n → s.effAddr k ≤ 4095

/-- Every address of the block can be written. -/
def Writable (s : State) (n : Nat) : Prop := ∀ k, k < n → 80 ≤ s.effAddr k ∧ s.effAddr k ≤ 4095

/-- Two states that differ at most in stale stack entries, those at `SP` and above (R25, R35). -/
def SameButStale (s t : State) : Prop :=
  t = { s with stack := t.stack } ∧ ∀ k, (h : k < 16) → k < s.sp.val → t.stack[k]'h = s.stack[k]'h

/-- While waiting, the word at `PC` is the `LD Vx, K` being waited on (R207). -/
def WaitsAtItsInstruction (s : State) : Prop :=
  s.mode = .awaitingKey → s.fetch = .ok (encode (.ldVxK s.waitReg))

end Sys2Proof.Claims

open Sys2Proof Sys2Proof.Machine Sys2Proof.Claims

/-! ### Encoding -/

/-- spec/30_encoding.md R91 to R94: decoding an encoded instruction gives it back, every operand at every value. -/
def Obligations.DecodingAnEncodedInstructionGivesItBack : Prop :=
  ∀ i : Instr, decodeWord (encode i) = some i

/-- spec/30_encoding.md R93, R97: no bit of a legal word is dropped, the ignored `y` of `SHR` and `SHL` among them. -/
def Obligations.EncodingADecodedWordGivesItBack : Prop :=
  ∀ (w : Word) (i : Instr), decodeWord w = some i → encode i = w

/-- spec/30_encoding.md R93 to R95: a word decodes to the instruction of a row exactly when `w & mask = match` of that
row, and no word matches two rows. R94 marks the masks as the spec's own rendering of the nibble patterns. -/
def Obligations.DecodingFollowsTheMaskAndMatchTable : Prop :=
  (∀ (w : Word), ∀ r ∈ opcodeTable, (w &&& r.mask = r.pattern ↔ ∃ i, decodeWord w = some i ∧ i.row = r.row)) ∧
  (∀ (w : Word), ∀ r ∈ opcodeTable, ∀ q ∈ opcodeTable,
    w &&& r.mask = r.pattern → w &&& q.mask = q.pattern → r = q)

/-- spec/30_encoding.md R96: the words that decode to nothing are exactly those its table lists. -/
def Obligations.IllegalWordsAreExactlyThoseListed : Prop :=
  ∀ w : Word, decodeWord w = none ↔ illegalByR96 w

/-- spec/30_encoding.md R101 and spec/95_test_vectors.md section 2.1: words the spec writes out. -/
def Obligations.WordsTheSpecWritesOutDecodeAsItSays : Prop :=
  decodeWord 0x6005 = some (.ldImm 0 5) ∧ decodeWord 0x1202 = some (.jp 0x202) ∧
  decodeWord 0x8014 = some (.addReg 0 1) ∧ decodeWord 0x8015 = some (.sub 0 1) ∧
  decodeWord 0xD125 = some (.drw 1 2 5) ∧ decodeWord 0xF033 = some (.ldB 0) ∧ decodeWord 0xEA9E = some (.skp 0xA) ∧
  decodeWord 0xFF55 = some (.ldMemVx 0xF) ∧ decodeWord 0x8306 = some (.shr 3 0) ∧
  decodeWord 0x8376 = some (.shr 3 7) ∧ decodeWord 0x0001 = none ∧ decodeWord 0x5121 = none

/-! ### The step -/

/-- spec/40_flow.md R120, spec/20_memory.md R65: in mode `Running`, when the two bytes at `PC` decode to `i`, the operation
`step` is `exec i` of that very state (`exec` does the advance of `PC` itself, log entry 5). A queued `step` runs it on the
state without that `step`, so that what is queued after it, a tick or a key event, comes after the instruction (R236, R244;
the schedule is the model's form of the host's order, log entry 4). -/
def Obligations.StepRunsTheInstructionAtThePc : Prop :=
  ∀ (s u : State) (i : Instr), AtStep s u → s.mode = .running → s.pc.toNat ≤ 4094 →
    decodeBytes [s.mem.read s.pc.toNat, s.mem.read (s.pc.toNat + 1)] = .ok (i, []) → step s = exec i u

/-- spec/20_memory.md R65, R66: the byte at the lower address is the high byte; the fetch faults above address 4094 (where
the bound is checked is decision D27). -/
def Obligations.FetchIsBigEndianAndBounded : Prop :=
  ∀ s : State,
    (s.pc.toNat ≤ 4094 → ∃ w, s.fetch = .ok w ∧
      w.toNat = 256 * (s.mem.read s.pc.toNat).toNat + (s.mem.read (s.pc.toNat + 1)).toNat) ∧
    (4094 < s.pc.toNat → s.fetch = .error { cause := .fetchFault, info := BitVec.ofNat 17 s.pc.toNat })

/-- spec/60_exceptions.md R221, R223, R224 (decisions D7 to D9): a fetch past memory and an illegal word each take their
fault, recorded as R221 says, everything else as before, whether the `step` is queued or not (log entry 4). -/
def Obligations.FetchAndDecodeFaultsAreTaken : Prop :=
  ∀ s u : State, AtStep s u → s.mode = .running →
    (4094 < s.pc.toNat →
      step s = .next { u with mode := .faulted, cause := .fetchFault, faultPc := s.pc, faultOp := 0,
                              faultInfo := BitVec.ofNat 17 s.pc.toNat }) ∧
    (∀ w, s.fetch = .ok w → decodeWord w = none →
      step s = .next { u with mode := .faulted, cause := .invalidOpcode, faultPc := s.pc, faultOp := w,
                              faultInfo := BitVec.ofNat 17 w.toNat })

/-- spec/60_exceptions.md R226 (decision D6): while `Faulted`, `step` changes nothing, however often it is called; a queued
`step` only leaves the schedule (log entry 4). -/
def Obligations.FaultedCoreStaysAsItIs : Prop :=
  (∀ s u : State, AtStep s u → s.mode = .faulted → step s = .next u) ∧
  ∀ (n : Nat) (s : State), s.mode = .faulted → s.env.schedule = [] → Sys2Proof.core.run n s = .next s

/-- spec/44_keypad_timers.md R204: the waiting step, queued or not (log entry 4). -/
def Obligations.WaitingStepPollsTheKeys : Prop :=
  ∀ s u : State, AtStep s u → s.mode = .awaitingKey →
    (∀ k, k < 16 → s.keyDown k = true → (∀ j, j < k → s.keyDown j = false) →
      ∃ t, step s = .next t ∧ t = { u with v := t.v, pc := s.pc + 2, mode := .running } ∧
        t.getV s.waitReg = BitVec.ofNat 8 k ∧ ∀ r, r ≠ s.waitReg → t.getV r = s.getV r) ∧
    ((∀ k, k < 16 → s.keyDown k = false) → step s = .next u)

/-- spec/60_exceptions.md R224, R225 (decision D6): an instruction that ends in `Faulted` has changed the mode and the
fault record alone; `FAULT_PC` is its address and `FAULT_OP` its word. -/
def Obligations.InstructionFaultsArePrecise : Prop :=
  ∀ (i : Instr) (s t : State), s.mode ≠ .faulted → exec i s = .next t → t.mode = .faulted →
    t = { s with mode := .faulted, cause := t.cause, faultPc := s.pc, faultOp := encode i, faultInfo := t.faultInfo } ∧
    t.cause ≠ .none

/-- spec/60_exceptions.md R222: which instruction can raise which fault, exhaustively. -/
def Obligations.OnlyTheListedInstructionsFault : Prop :=
  ∀ (i : Instr) (s t : State), s.mode ≠ .faulted → exec i s = .next t → t.mode = .faulted → t.cause ∈ executeFaults i

/-- The machine never stops outside the spec's own state (spec/60_exceptions.md R220, R236): every step answers a next
state, whatever is queued. -/
def Obligations.EveryStepAnswersANextState : Prop :=
  ∀ s : State, ∃ t, step s = .next t

/-! ### Control flow -/

/-- spec/40_flow.md R123. -/
def Obligations.NopOnlyAdvances : Prop :=
  (∀ s : State, exec .nop s = .next { s with pc := s.pc + 2 }) ∧ (∀ w : Word, decodeWord w = some .nop ↔ w = 0x0000)

/-- spec/40_flow.md R125: any target is accepted; a jump to its own address leaves the whole state as it is. -/
def Obligations.JumpGoesToItsTarget : Prop :=
  ∀ nnn : Imm12, HasWord (.jp nnn) (0x1000 + nnn.toNat) ∧
    ∀ s : State, ∃ t, exec (.jp nnn) s = .next t ∧ t.pc.toNat = nnn.toNat ∧ t = { s with pc := t.pc } ∧
      (s.pc.toNat = nnn.toNat → t = s)

/-- spec/40_flow.md R131: `PC` is the unbounded sum `nnn + V[0]`. -/
def Obligations.IndexedJumpAddsRegisterZero : Prop :=
  ∀ nnn : Imm12, HasWord (.jpV0 nnn) (0xB000 + nnn.toNat) ∧
    ∀ s : State, ∃ t, exec (.jpV0 nnn) s = .next t ∧ t.pc.toNat = nnn.toNat + (s.getV 0).toNat ∧ t = { s with pc := t.pc }

/-- spec/40_flow.md R126: `CALL` pushes the address of the following instruction and jumps; with 16 entries it takes
`StackOverflow(16)` (R121, R221): nothing is pushed, `PC` stays, only the mode and the fault record change (decisions D6 to
D8). -/
def Obligations.CallPushesTheReturnAddress : Prop :=
  ∀ nnn : Imm12, HasWord (.call nnn) (0x2000 + nnn.toNat) ∧
    ∀ s : State,
      (∀ h : s.sp.val < 16, ∃ t, exec (.call nnn) s = .next t ∧ t.pc.toNat = nnn.toNat ∧ t.sp.val = s.sp.val + 1 ∧
        t.stack[s.sp.val]'h = s.pc + 2 ∧ (∀ k, (hk : k < 16) → k ≠ s.sp.val → t.stack[k]'hk = s.stack[k]'hk) ∧
        t = { s with pc := t.pc, sp := t.sp, stack := t.stack }) ∧
      (s.sp.val = 16 → TakesFault (.call nnn) s .stackOverflow 16)

/-- spec/40_flow.md R124: `RET` pops the return address into `PC`, the entry keeps its value; with an empty stack it takes
`StackUnderflow(0)` (R122, R221): only the mode and the fault record change (decisions D6 to D8). -/
def Obligations.ReturnPopsIntoThePc : Prop :=
  HasWord .ret 0x00EE ∧
    ∀ s : State,
      (∀ h : 0 < s.sp.val, ∃ t, exec .ret s = .next t ∧ t.pc = s.stack[s.sp.val - 1]'(by omega) ∧
        t.sp.val + 1 = s.sp.val ∧ t = { s with pc := t.pc, sp := t.sp }) ∧
      (s.sp.val = 0 → TakesFault .ret s .stackUnderflow 0)

/-- spec/40_flow.md R121, R122: `Push` writes `STACK[SP]` and then increments `SP`; `Pop` decrements `SP` and leaves the
entry; a full stack overflows and an empty one underflows; "Pushing a1 .. an (n <= 16) then popping n times yields an ..
a1 unchanged". -/
def Obligations.StackIsLastInFirstOut : Prop :=
  (∀ (s : State) (w : Word),
    (∀ h : s.sp.val < 16, ∃ t, s.push w = .ok t ∧ t.sp.val = s.sp.val + 1 ∧ t.stack[s.sp.val]'h = w ∧
      (∀ k, (hk : k < 16) → k ≠ s.sp.val → t.stack[k]'hk = s.stack[k]'hk) ∧
      t = { s with sp := t.sp, stack := t.stack }) ∧
    (s.sp.val = 16 → s.push w = .error { cause := .stackOverflow, info := 16 })) ∧
  (∀ s : State,
    (∀ h : 0 < s.sp.val, ∃ t, s.pop = .ok (s.stack[s.sp.val - 1]'(by omega), t) ∧
      t.sp.val + 1 = s.sp.val ∧ t = { s with sp := t.sp }) ∧
    (s.sp.val = 0 → s.pop = .error { cause := .stackUnderflow, info := 0 })) ∧
  ∀ (s : State) (ws : List Word), s.sp.val + ws.length ≤ 16 →
    ∃ t u, pushAll s ws = .ok t ∧ popAll ws.length t = .ok (ws.reverse, u) ∧ u = { s with stack := t.stack }

/-- spec/40_flow.md R127, R128: the skips against an immediate, by 4 when the condition holds and by 2 otherwise. -/
def Obligations.ImmediateSkipsCompareTheRegister : Prop :=
  ∀ (x : RegIx) (nn : Byte),
    HasWord (.seImm x nn) (0x3000 + 256 * x.toNat + nn.toNat) ∧
    HasWord (.sneImm x nn) (0x4000 + 256 * x.toNat + nn.toNat) ∧
    ∀ s : State,
      exec (.seImm x nn) s = .next { s with pc := if s.getV x = nn then s.pc + 4 else s.pc + 2 } ∧
      exec (.sneImm x nn) s = .next { s with pc := if s.getV x = nn then s.pc + 2 else s.pc + 4 }

/-- spec/40_flow.md R129, R130: the skips that compare two registers; `x = y` always skips the one and never the other. -/
def Obligations.RegisterSkipsCompareTwoRegisters : Prop :=
  ∀ x y : RegIx,
    HasWord (.seReg x y) (0x5000 + 256 * x.toNat + 16 * y.toNat) ∧
    HasWord (.sneReg x y) (0x9000 + 256 * x.toNat + 16 * y.toNat) ∧
    (∀ n : BitVec 4, n ≠ 0 → decodeWord (packXYN 0x5 x y n) = none ∧ decodeWord (packXYN 0x9 x y n) = none) ∧
    ∀ s : State,
      exec (.seReg x y) s = .next { s with pc := if s.getV x = s.getV y then s.pc + 4 else s.pc + 2 } ∧
      exec (.sneReg x y) s = .next { s with pc := if s.getV x = s.getV y then s.pc + 2 else s.pc + 4 }

/-! ### Registers and arithmetic -/

/-- spec/41_alu.md R142, R143, R144: register load, add immediate and copy; `V[15]` changes only as the destination. -/
def Obligations.LoadsAndImmediateAddWriteOneRegister : Prop :=
  ∀ (x y : RegIx) (nn : Byte),
    HasWord (.ldImm x nn) (0x6000 + 256 * x.toNat + nn.toNat) ∧
    HasWord (.addImm x nn) (0x7000 + 256 * x.toNat + nn.toNat) ∧
    HasWord (.ldReg x y) (0x8000 + 256 * x.toNat + 16 * y.toNat) ∧
    ∀ s : State,
      (∃ t, exec (.ldImm x nn) s = .next t ∧ t = { s with v := t.v, pc := s.pc + 2 } ∧
        t.getV x = nn ∧ ∀ r, r ≠ x → t.getV r = s.getV r) ∧
      (∃ t, exec (.addImm x nn) s = .next t ∧ t = { s with v := t.v, pc := s.pc + 2 } ∧
        (t.getV x).toNat = ((s.getV x).toNat + nn.toNat) % 256 ∧ ∀ r, r ≠ x → t.getV r = s.getV r) ∧
      (∃ t, exec (.ldReg x y) s = .next t ∧ t = { s with v := t.v, pc := s.pc + 2 } ∧
        t.getV x = s.getV y ∧ ∀ r, r ≠ x → t.getV r = s.getV r)

/-- spec/41_alu.md R145 to R147: OR, AND and XOR bit by bit. That `V[15]` is not written is the spec's decision D14. -/
def Obligations.LogicalInstructionsWriteOnlyTheirDestination : Prop :=
  ∀ (x y : RegIx) (s : State),
    (∃ t, exec (.or x y) s = .next t ∧ t = { s with v := t.v, pc := s.pc + 2 } ∧ (∀ r, r ≠ x → t.getV r = s.getV r) ∧
      ∀ k, (t.getV x).getLsbD k = ((s.getV x).getLsbD k || (s.getV y).getLsbD k)) ∧
    (∃ t, exec (.and x y) s = .next t ∧ t = { s with v := t.v, pc := s.pc + 2 } ∧ (∀ r, r ≠ x → t.getV r = s.getV r) ∧
      ∀ k, (t.getV x).getLsbD k = ((s.getV x).getLsbD k && (s.getV y).getLsbD k)) ∧
    (∃ t, exec (.xor x y) s = .next t ∧ t = { s with v := t.v, pc := s.pc + 2 } ∧ (∀ r, r ≠ x → t.getV r = s.getV r) ∧
      ∀ k, (t.getV x).getLsbD k = ((s.getV x).getLsbD k).xor ((s.getV y).getLsbD k))

/-- spec/41_alu.md R140, R148, R149, R151: results modulo 256, carry and "no borrow" in `V[15]` on every execution. With
`x = 15` the flag survives and the result is lost: the write order is the spec's decision D12 (R141). -/
def Obligations.AddAndSubtractSetTheFlagLast : Prop :=
  ∀ (x y : RegIx) (s : State),
    (∃ t, exec (.addReg x y) s = .next t ∧ t = { s with v := t.v, pc := s.pc + 2 } ∧
      (x ≠ 15 → (t.getV x).toNat = ((s.getV x).toNat + (s.getV y).toNat) % 256) ∧
      t.getV 15 = (if 255 < (s.getV x).toNat + (s.getV y).toNat then 1 else 0) ∧
      ∀ r, r ≠ x → r ≠ 15 → t.getV r = s.getV r) ∧
    (∃ t, exec (.sub x y) s = .next t ∧ t = { s with v := t.v, pc := s.pc + 2 } ∧
      (x ≠ 15 → (t.getV x).toNat = ((s.getV x).toNat + 256 - (s.getV y).toNat) % 256) ∧
      t.getV 15 = (if (s.getV y).toNat ≤ (s.getV x).toNat then 1 else 0) ∧
      ∀ r, r ≠ x → r ≠ 15 → t.getV r = s.getV r) ∧
    (∃ t, exec (.subn x y) s = .next t ∧ t = { s with v := t.v, pc := s.pc + 2 } ∧
      (x ≠ 15 → (t.getV x).toNat = ((s.getV y).toNat + 256 - (s.getV x).toNat) % 256) ∧
      t.getV 15 = (if (s.getV x).toNat ≤ (s.getV y).toNat then 1 else 0) ∧
      ∀ r, r ≠ x → r ≠ 15 → t.getV r = s.getV r)

/-- spec/41_alu.md R150, R152: shift by one in place, the bit shifted out in `V[15]`, whatever `y`. With `x = 15` the flag
is written first and then shifted, so `V[15]` ends 0, or 0 or 2: decision D12 (R141). -/
def Obligations.ShiftsPutTheBitShiftedOutInTheFlag : Prop :=
  ∀ (x y : RegIx) (s : State),
    (∃ t, exec (.shr x y) s = .next t ∧ t = { s with v := t.v, pc := s.pc + 2 } ∧
      (x ≠ 15 → (t.getV x).toNat = (s.getV x).toNat / 2 ∧ (t.getV 15).toNat = (s.getV x).toNat % 2) ∧
      (x = 15 → t.getV 15 = 0) ∧ ∀ r, r ≠ x → r ≠ 15 → t.getV r = s.getV r) ∧
    (∃ t, exec (.shl x y) s = .next t ∧ t = { s with v := t.v, pc := s.pc + 2 } ∧
      (x ≠ 15 → (t.getV x).toNat = 2 * (s.getV x).toNat % 256 ∧ (t.getV 15).toNat = (s.getV x).toNat / 128) ∧
      (x = 15 → (t.getV 15).toNat = 2 * ((s.getV 15).toNat / 128)) ∧ ∀ r, r ≠ x → r ≠ 15 → t.getV r = s.getV r)

/-- spec/41_alu.md R153: `RND` masks one drawn byte. Whatever byte the environment has queued is the byte drawn; with
none queued it is some byte (the queue and the free value are the model's form of R245's input, log entry 2). Exactly
one draw is consumed, and none by any other instruction. -/
def Obligations.RandomLoadMasksOneDraw : Prop :=
  (∀ (x : RegIx) (nn : Byte), HasWord (.rnd x nn) (0xC000 + 256 * x.toNat + nn.toNat) ∧
    ∀ s : State,
      (∀ (b : Byte) (bs : List Byte), s.env.draws = b :: bs →
        ∃ t, exec (.rnd x nn) s = .next t ∧ t.getV x = b &&& nn ∧ (∀ r, r ≠ x → t.getV r = s.getV r) ∧
          t = { s with v := t.v, pc := s.pc + 2, env := { s.env with draws := bs } }) ∧
      (s.env.draws = [] →
        ∃ (t : State) (b : Byte), exec (.rnd x nn) s = .next t ∧ t.getV x = b &&& nn ∧
          (∀ r, r ≠ x → t.getV r = s.getV r) ∧
          t = { s with v := t.v, pc := s.pc + 2, env := { s.env with drawCount := s.env.drawCount + 1 } })) ∧
  (∀ (i : Instr) (s t : State), (∀ x nn, i ≠ .rnd x nn) → exec i s = .next t →
    t.env.draws = s.env.draws ∧ t.env.drawCount = s.env.drawCount)

/-! ### Index register and memory -/

/-- spec/42_index_memory.md R170: every `nnn` is accepted. -/
def Obligations.LoadIndexTakesTheImmediate : Prop :=
  ∀ nnn : Imm12, HasWord (.ldI nnn) (0xA000 + nnn.toNat) ∧
    ∀ s : State, ∃ t, exec (.ldI nnn) s = .next t ∧ t.i.toNat = nnn.toNat ∧ t = { s with i := t.i, pc := s.pc + 2 }

/-- spec/42_index_memory.md R171, R172: `ADD I` wraps at 16 bits and writes no flag (decision D14); `LD F` multiplies the
whole byte by 5 (decision D16). -/
def Obligations.IndexArithmeticIsUnmasked : Prop :=
  ∀ (x : RegIx) (s : State),
    (∃ t, exec (.addI x) s = .next t ∧ t.i.toNat = (s.i.toNat + (s.getV x).toNat) % 65536 ∧
      t = { s with i := t.i, pc := s.pc + 2 }) ∧
    (∃ t, exec (.ldF x) s = .next t ∧ t.i.toNat = 5 * (s.getV x).toNat ∧ t = { s with i := t.i, pc := s.pc + 2 })

/-- spec/42_index_memory.md R173: three digits at `I`, `I+1`, `I+2`, every other byte of memory as before. The address
rule (which addresses can be written) is decision D3. -/
def Obligations.DecimalStoreWritesThreeDigits : Prop :=
  ∀ (x : RegIx) (s : State), Writable s 3 →
    ∃ t, exec (.ldB x) s = .next t ∧ t = { s with mem := t.mem, pc := s.pc + 2 } ∧
      (t.mem.read (s.effAddr 0)).toNat = (s.getV x).toNat / 100 ∧
      (t.mem.read (s.effAddr 1)).toNat = (s.getV x).toNat / 10 % 10 ∧
      (t.mem.read (s.effAddr 2)).toNat = (s.getV x).toNat % 10 ∧
      ∀ a, a < s.effAddr 0 ∨ s.effAddr 3 ≤ a → t.mem.read a = s.mem.read a

/-- spec/42_index_memory.md R175: `V[0]` to `V[x]` at `I` up, every other byte of memory and `I` as before (that `I` stays
is decision D15). -/
def Obligations.RegisterStoreWritesTheBlock : Prop :=
  ∀ (x : RegIx) (s : State), Writable s (x.toNat + 1) →
    ∃ t, exec (.ldMemVx x) s = .next t ∧ t = { s with mem := t.mem, pc := s.pc + 2 } ∧
      (∀ r : RegIx, r.toNat ≤ x.toNat → t.mem.read (s.effAddr r.toNat) = s.getV r) ∧
      ∀ a, a < s.effAddr 0 ∨ s.effAddr (x.toNat + 1) ≤ a → t.mem.read a = s.mem.read a

/-- spec/42_index_memory.md R176: `V[0]` to `V[x]` from memory at `I` up, every other register and `I` as before (decision
D15). -/
def Obligations.RegisterLoadReadsTheBlock : Prop :=
  ∀ (x : RegIx) (s : State), Readable s (x.toNat + 1) →
    ∃ t, exec (.ldVxMem x) s = .next t ∧ t = { s with v := t.v, pc := s.pc + 2 } ∧
      (∀ r : RegIx, r.toNat ≤ x.toNat → t.getV r = s.mem.read (s.effAddr r.toNat)) ∧
      ∀ r : RegIx, x.toNat < r.toNat → t.getV r = s.getV r

/-- spec/42_index_memory.md R173 to R175, spec/20_memory.md R68: a store that reaches outside 80 to 4095 takes the fault
of its lowest failing address and writes nothing (decisions D3, D5, D6). -/
def Obligations.StoresOutsideWritableMemoryFault : Prop :=
  ∀ (x : RegIx) (s : State) (k : Nat), (∀ j, j < k → 80 ≤ s.effAddr j ∧ s.effAddr j ≤ 4095) →
    (4095 < s.effAddr k →
      (k < 3 → TakesFault (.ldB x) s .memWriteFault (s.effAddr k)) ∧
      (k ≤ x.toNat → TakesFault (.ldMemVx x) s .memWriteFault (s.effAddr k))) ∧
    (s.effAddr k < 80 →
      (k < 3 → TakesFault (.ldB x) s .fontWriteFault (s.effAddr k)) ∧
      (k ≤ x.toNat → TakesFault (.ldMemVx x) s .fontWriteFault (s.effAddr k)))

/-- spec/42_index_memory.md R174, R176, spec/43_display.md R192: a block read that reaches above 4095 takes
`MemReadFault(max(I, 4096))`, and no register and no cell changes (decisions D5, D6). -/
def Obligations.ReadsPastMemoryFault : Prop :=
  ∀ (x y : RegIx) (s : State),
    (4095 < s.effAddr x.toNat → TakesFault (.ldVxMem x) s .memReadFault (max s.i.toNat 4096)) ∧
    (∀ n : BitVec 4, n ≠ 0 → 4095 < s.effAddr (n.toNat - 1) →
      TakesFault (.drw x y n) s .memReadFault (max s.i.toNat 4096))

/-- spec/20_memory.md R74: a block store over the next instruction is what the next fetch reads. R74 marks this as
derived. -/
def Obligations.NextFetchSeesAStore : Prop :=
  ∀ (x : RegIx) (s : State), x ≠ 0 → s.i = s.pc + 2 → Writable s (x.toNat + 1) → s.pc.toNat ≤ 4092 →
    ∃ t, exec (.ldMemVx x) s = .next t ∧ t.fetch = .ok (wordOfBytes (s.getV 0) (s.getV 1))

/-! ### Display -/

/-- spec/43_display.md R191. -/
def Obligations.ClearScreenUnlightsEveryCell : Prop :=
  HasWord .cls 0x00E0 ∧
    ∀ s : State, ∃ t, exec .cls s = .next t ∧ t = { s with fb := t.fb, pc := s.pc + 2 } ∧
      (∀ cx cy, t.cell cx cy = false) ∧ ∀ i, fbBit t.fb i = false

/-- spec/43_display.md R190, R192: every cell under a 1 bit of the sprite is inverted, every other cell is as before, and
`V[15]` is 1 exactly when a lit cell was turned off. That the origins are sampled before the flag is written is decision
D13. It completes whenever the sprite lies in memory, and always when `n = 0`. -/
def Obligations.DrawInvertsTheCellsUnderTheSprite : Prop :=
  ∀ (x y : RegIx) (n : BitVec 4) (s : State), Readable s n.toNat →
    ∃ t, exec (.drw x y n) s = .next t ∧ t = { s with v := t.v, fb := t.fb, pc := s.pc + 2 } ∧
      (∀ cx cy, SpriteCovers s x y n.toNat cx cy → t.cell cx cy = !(s.cell cx cy)) ∧
      (∀ cx cy, ¬ SpriteCovers s x y n.toNat cx cy → t.cell cx cy = s.cell cx cy) ∧
      ((∃ cx cy, SpriteCovers s x y n.toNat cx cy ∧ s.cell cx cy = true) → t.getV 15 = 1) ∧
      ((∀ cx cy, SpriteCovers s x y n.toNat cx cy → s.cell cx cy = false) → t.getV 15 = 0) ∧
      ∀ r, r ≠ 15 → t.getV r = s.getV r

/-- spec/43_display.md R193: the same sprite drawn twice at the same coordinates restores the framebuffer, and the second
draw reports a collision exactly when the first lit some cell. Registers `x` and `y` are not `V[15]`, which the first draw
rewrites (R193 says that a program that names it "loses this"). -/
def Obligations.DrawingTwiceRestoresTheFramebuffer : Prop :=
  ∀ (x y : RegIx) (n : BitVec 4) (s t u : State), x ≠ 15 → y ≠ 15 → s.mode = .running →
    exec (.drw x y n) s = .next t → t.mode = .running → exec (.drw x y n) t = .next u →
    u.mode = .running ∧ u.fb = s.fb ∧
      ((∃ cx cy, s.cell cx cy = false ∧ t.cell cx cy = true) → u.getV 15 = 1) ∧
      ((∀ cx cy, s.cell cx cy = false → t.cell cx cy = false) → u.getV 15 = 0)

/-! ### Keypad and timers -/

/-- spec/44_keypad_timers.md R200, R201: the skips on a key; an index above 15 faults, unmasked (decision D10). -/
def Obligations.KeySkipsTestTheNamedKey : Prop :=
  ∀ (x : RegIx) (s : State),
    ((s.getV x).toNat ≤ 15 →
      exec (.skp x) s = .next { s with pc := if s.keyDown (s.getV x).toNat then s.pc + 4 else s.pc + 2 } ∧
      exec (.sknp x) s = .next { s with pc := if s.keyDown (s.getV x).toNat then s.pc + 2 else s.pc + 4 }) ∧
    (15 < (s.getV x).toNat →
      TakesFault (.skp x) s .keyIndexFault (s.getV x).toNat ∧ TakesFault (.sknp x) s .keyIndexFault (s.getV x).toNat)

/-- spec/44_keypad_timers.md R202, R205, R206: the delay timer is read and set; the sound timer is set and nothing is
emitted, 0 silencing the pending trigger and 1 making the next tick emit it. -/
def Obligations.TimerInstructionsReadAndSetTheTimers : Prop :=
  ∀ x : RegIx, HasWord (.ldVxDt x) (0xF007 + 256 * x.toNat) ∧ HasWord (.ldDtVx x) (0xF015 + 256 * x.toNat) ∧
    HasWord (.ldStVx x) (0xF018 + 256 * x.toNat) ∧
    ∀ s : State,
      (∃ t, exec (.ldVxDt x) s = .next t ∧ t = { s with v := t.v, pc := s.pc + 2 } ∧ t.getV x = s.dt ∧
        ∀ r, r ≠ x → t.getV r = s.getV r) ∧
      exec (.ldDtVx x) s = .next { s with dt := s.getV x, pc := s.pc + 2 } ∧
      ∃ t, exec (.ldStVx x) s = .next t ∧ t = { s with st := s.getV x, pc := s.pc + 2 } ∧
        (s.getV x = 0 → t.timerTick.env.outputs = s.env.outputs) ∧
        (s.getV x = 1 → t.timerTick.env.outputs = s.env.outputs ++ [.toneTrigger])

/-- spec/44_keypad_timers.md R203: the least pressed key at once, or the wait with `PC` at this instruction (the explicit
waiting mode is decision D11). -/
def Obligations.KeyWaitTakesTheLowestKeyOrWaits : Prop :=
  ∀ (x : RegIx) (s : State),
    (∀ k, k < 16 → s.keyDown k = true → (∀ j, j < k → s.keyDown j = false) →
      ∃ t, exec (.ldVxK x) s = .next t ∧ t = { s with v := t.v, pc := s.pc + 2 } ∧ t.getV x = BitVec.ofNat 8 k ∧
        ∀ r, r ≠ x → t.getV r = s.getV r) ∧
    ((∀ k, k < 16 → s.keyDown k = false) → exec (.ldVxK x) s = .next { s with waitReg := x, mode := .awaitingKey })

/-- spec/44_keypad_timers.md R207: a waiting step, queued or not, does what re-executing the `LD Vx, K` at `PC` would do.
R207 marks this as derived. -/
def Obligations.WaitingEqualsReexecuting : Prop :=
  ∀ s u : State, AtStep s u → s.mode = .awaitingKey → s.fetch = .ok (encode (.ldVxK s.waitReg)) →
    step s = step { s with mode := .running }

/-- spec/44_keypad_timers.md R207: during a wait the word at `PC` stays the `LD Vx, K` waited on, whatever the host does
but `load` (outside the protocol then, R246). -/
def Obligations.WaitStaysAtItsInstruction : Prop :=
  ∀ s t : State, WaitsAtItsInstruction s → (∀ bytes, s.env.schedule.head? ≠ some (.load bytes)) → step s = .next t →
    WaitsAtItsInstruction t

/-! ### The host's operations -/

/-- spec/60_exceptions.md R239: both timers count down to 0 and stay there, independently and in every mode; the tick that
takes `ST` from 1 to 0 emits the tone trigger. -/
def Obligations.TickCountsBothTimersDown : Prop :=
  ∀ (s : State) (ops : List HostOp), s.env.schedule = .timerTick :: ops →
    ∃ t, step s = .next t ∧ t.dt.toNat = s.dt.toNat - 1 ∧ t.st.toNat = s.st.toNat - 1 ∧
      t = { s with dt := t.dt, st := t.st, env := { s.env with schedule := ops, outputs := t.env.outputs } } ∧
      t.env.outputs = if s.st = 1 then s.env.outputs ++ [.toneTrigger] else s.env.outputs

/-- spec/60_exceptions.md R240 (decision D21): a step emits the tone trigger exactly when it is a tick with `ST = 1`. -/
def Obligations.OnlyATickFromOneEmitsTheTone : Prop :=
  ∀ s t : State, step s = .next t →
    (t.env.outputs = s.env.outputs ++ [.toneTrigger] ↔ s.env.schedule.head? = some .timerTick ∧ s.st = 1)

/-- spec/60_exceptions.md R241: the named key takes the value, every other keeps its own; an index above 15 is ignored
(its type is decision D23). That it acts in every mode is R227, decision D18. -/
def Obligations.SetKeyWritesOneLatchBit : Prop :=
  ∀ (s : State) (ops : List HostOp) (k : Nat) (p : Bool), s.env.schedule = .setKey k p :: ops →
    ∃ t, step s = .next t ∧ t = { s with keys := t.keys, env := { s.env with schedule := ops } } ∧
      (k ≤ 15 → t.keyDown k = p) ∧ (∀ j, j ≠ k → t.keyDown j = s.keyDown j) ∧ (15 < k → t.keys = s.keys)

/-- spec/60_exceptions.md R242: the snapshot is the 2048 bits as they are, cell `(cx, cy)` at position `cy * 64 + cx`, and
the core is unchanged. That the snapshot joins the trace of outputs is the model's choice (log entry 11); that it is given
in every mode is R227, decision D18. -/
def Obligations.FramebufferReadIsASnapshot : Prop :=
  ∀ (s : State) (ops : List HostOp), s.env.schedule = .readFramebuffer :: ops →
    ∃ (t : State) (f : Framebuffer), step s = .next t ∧
      t = { s with env := { s.env with schedule := ops, outputs := s.env.outputs ++ [.framebuffer f] } } ∧
      ∀ (cx : Fin 64) (cy : Fin 32) (i : Fin 2048), i.val = cy.val * 64 + cx.val → fbBit f i = s.cell cx cy

/-- spec/60_exceptions.md R238, R228: at most 3584 bytes go to 512 up and nothing else changes; more are refused with no
change (no partial copy is decision D20). It is stated of every state: that a `load` after stepping, or a second one, is the
same overlay is the model's choice (log entry 7, unsafe), since R246 leaves it outside the protocol. That its result joins
the trace of outputs is the model's choice (log entry 11). -/
def Obligations.LoadCopiesOrRejectsWhole : Prop :=
  ∀ (s : State) (ops : List HostOp) (bytes : List Byte), s.env.schedule = .load bytes :: ops →
    (bytes.length ≤ 3584 → ∃ t, step s = .next t ∧
      t = { s with mem := t.mem, env := { s.env with schedule := ops, outputs := s.env.outputs ++ [.loadOk] } } ∧
      (∀ k, (h : k < bytes.length) → t.mem.read (512 + k) = bytes[k]) ∧
      ∀ a, a < 512 ∨ 512 + bytes.length ≤ a → t.mem.read a = s.mem.read a) ∧
    (3584 < bytes.length →
      step s = .next { s with env := { s.env with schedule := ops, outputs := s.env.outputs ++ [.loadTooLarge] } })

/-- spec/70_reset_and_hazards.md R270, spec/10_state.md R36: what `reset` leaves, from any state in any mode, for every
font; nothing is emitted; that the environment is kept is the model's choice (log entry 4). That memory from 80 up is
zeroed is decision D19; the mode and the fault record are decisions D6, D8 and D11. -/
def Obligations.ResetRestoresEveryPieceOfState : Prop :=
  ∀ (s : State) (ops : List HostOp), s.env.schedule = .reset :: ops →
    ∃ t, step s = .next t ∧ t.pc = 0x0200 ∧ t.i = 0 ∧ t.sp.val = 0 ∧ t.dt = 0 ∧ t.st = 0 ∧ t.keys = 0 ∧
      (∀ r, t.getV r = 0) ∧ (∀ k, (h : k < 16) → t.stack[k]'h = 0) ∧ (∀ cx cy, t.cell cx cy = false) ∧
      (∀ a, a < 80 → t.mem.read a = fontByte s.env.font a) ∧ (∀ a, 80 ≤ a → t.mem.read a = 0) ∧
      t.mode = .running ∧ t.waitReg = 0 ∧ t.cause = .none ∧ t.faultPc = 0 ∧ t.faultOp = 0 ∧ t.faultInfo = 0 ∧
      t.env = { s.env with schedule := ops }

/-- The reset state itself: every row of the table of spec/10_state.md R36 (R271), with the default font of
spec/20_memory.md R64 (log entry 1). That memory at its reset contents lists nothing is the model's form of it (log entry 9)
and the empty environment is the model's choice (log entry 3). The mode and the fault record are decisions D6, D8 and D11,
memory from 80 up decision D19. -/
def Obligations.ResetStateHasTheResetValues : Prop :=
  State.reset.pc = 0x0200 ∧ State.reset.i = 0 ∧ State.reset.sp.val = 0 ∧ State.reset.dt = 0 ∧ State.reset.st = 0 ∧
  State.reset.keys = 0 ∧ (∀ r, State.reset.getV r = 0) ∧ (∀ k, (h : k < 16) → State.reset.stack[k]'h = 0) ∧
  (∀ cx cy, State.reset.cell cx cy = false) ∧
  State.reset.mem = [] ∧ (∀ a, a < 80 → State.reset.mem.read a = fontByte fontDefault a) ∧
  (∀ a, 80 ≤ a → State.reset.mem.read a = 0) ∧ State.reset.mem.read 0 = 0xF0 ∧ State.reset.mem.read 79 = 0x80 ∧
  State.reset.mode = .running ∧ State.reset.waitReg = 0 ∧ State.reset.cause = .none ∧ State.reset.faultPc = 0 ∧
  State.reset.faultOp = 0 ∧ State.reset.faultInfo = 0 ∧
  State.reset.env = { schedule := [], draws := [], drawCount := 0, outputs := [], font := fontDefault }

/-! ### The whole machine -/

/-- The reset state meets the invariants: those of spec/10_state.md R37, which R37 marks as derived, and two of the model's
own, the canonical form of memory (log entry 9) and `PC <= 4094` while waiting, which R37 does not list (it follows from
R203, log entry 19). -/
def Obligations.ResetMeetsTheInvariants : Prop :=
  State.reset.Inv

/-- spec/10_state.md R37: every step, whatever operation it is, keeps the invariants: memory canonical, `MEM[0..79] =
FONT`, `PC <= 4350`, live stack entries at most 4096, `MODE = Faulted` exactly when `CAUSE` is not 0. R37 marks them as
derived; the canonical form (log entry 9) and `PC <= 4094` while waiting (log entry 19) are the model's own. -/
def Obligations.EveryStepKeepsTheInvariants : Prop :=
  ∀ s t : State, s.Inv → step s = .next t → t.Inv

/-- spec/20_memory.md R62 (decision D3): no instruction changes a byte of the font region, whatever the state. -/
def Obligations.NoInstructionWritesTheFont : Prop :=
  ∀ (i : Instr) (s t : State) (a : Nat), exec i s = .next t → a < 80 → t.mem.read a = s.mem.read a

/-- spec/10_state.md R38, the "written by" column: an instruction writes only what the access matrix lists for it. Every row
has a clause; `PC` is written by every instruction. The fault record is written by fault entry alone and the mode by fault
entry and `LD Vx, K`: an instruction that does not end in `Faulted` leaves the one alone, and the other too unless it is
`LD Vx, K`. -/
def Obligations.InstructionsWriteOnlyWhatTheMatrixLists : Prop :=
  ∀ (i : Instr) (s t : State), exec i s = .next t →
    t.keys = s.keys ∧ t.env.schedule = s.env.schedule ∧ t.env.outputs = s.env.outputs ∧ t.env.font = s.env.font ∧
    (i ≠ .cls → (∀ x y n, i ≠ .drw x y n) → t.fb = s.fb) ∧
    ((∀ x, i ≠ .ldB x) → (∀ x, i ≠ .ldMemVx x) → t.mem = s.mem) ∧
    ((∀ nnn, i ≠ .call nnn) → t.stack = s.stack) ∧
    ((∀ nnn, i ≠ .call nnn) → i ≠ .ret → t.sp = s.sp) ∧
    ((∀ nnn, i ≠ .ldI nnn) → (∀ x, i ≠ .addI x) → (∀ x, i ≠ .ldF x) → t.i = s.i) ∧
    ((∀ x, i ≠ .ldDtVx x) → t.dt = s.dt) ∧ ((∀ x, i ≠ .ldStVx x) → t.st = s.st) ∧
    ((∀ x, i ≠ .ldVxK x) → t.waitReg = s.waitReg) ∧
    (∀ r, writesRegister r i = false → t.getV r = s.getV r) ∧
    (t.mode ≠ .faulted →
      t.cause = s.cause ∧ t.faultPc = s.faultPc ∧ t.faultOp = s.faultOp ∧ t.faultInfo = s.faultInfo ∧
      ((∀ x, i ≠ .ldVxK x) → t.mode = s.mode))

/-- spec/10_state.md R21: `V[15]` is written as a flag by `ADD Vx, Vy`, `SUB`, `SHR`, `SUBN`, `SHL` and `DRW` alone; every
other instruction writes it only where `x = 15` names it. -/
def Obligations.OnlyTheFlagInstructionsWriteTheFlag : Prop :=
  ∀ (i : Instr) (s t : State), exec i s = .next t → t.getV 15 ≠ s.getV 15 →
    (∃ x y, i = .addReg x y ∨ i = .sub x y ∨ i = .shr x y ∨ i = .subn x y ∨ i = .shl x y ∨ ∃ n, i = .drw x y n) ∨
    (∃ nn y, i = .ldImm 15 nn ∨ i = .addImm 15 nn ∨ i = .rnd 15 nn ∨ i = .ldReg 15 y ∨ i = .or 15 y ∨ i = .and 15 y ∨
      i = .xor 15 y) ∨
    i = .ldVxDt 15 ∨ i = .ldVxK 15 ∨ i = .ldVxMem 15

/-- spec/10_state.md R27: "No instruction reads ST": another sound timer changes nothing an instruction does but the sound
timer itself. -/
def Obligations.NoInstructionReadsTheSoundTimer : Prop :=
  ∀ (i : Instr) (s t : State) (b : Byte), (∀ x, i ≠ .ldStVx x) → exec i s = .next t →
    exec i { s with st := b } = .next { t with st := b }

/-- spec/10_state.md R35 (derived there): stale stack entries are unobservable. From two states that differ in them alone
every step, whatever operation it is, leads to two states that differ in them alone. -/
def Obligations.StaleStackEntriesAreUnobservable : Prop :=
  ∀ s s' t : State, SameButStale s s' → step s = .next t → ∃ t', step s' = .next t' ∧ SameButStale t t'

/-- spec/60_exceptions.md R226 and spec/44_keypad_timers.md R204: `Faulted` is left by `reset` alone, and `AwaitingKey` by
`reset` or by a step that sees a key pressed. -/
def Obligations.FaultAndWaitAreLeftOnlyAsSaid : Prop :=
  ∀ s t : State, step s = .next t →
    (s.mode = .faulted → t.mode ≠ .faulted → s.env.schedule.head? = some .reset) ∧
    (s.mode = .awaitingKey → t.mode ≠ .awaitingKey →
      s.env.schedule.head? = some .reset ∨
      ((s.env.schedule = [] ∨ s.env.schedule.head? = some .step) ∧ t.mode = .running ∧
        ∃ k, k < 16 ∧ s.keyDown k = true))

/-- spec/10_state.md R28: the key latch is "mutated only by the external driver": a step that changes it is a `set_key`
or a `reset`. -/
def Obligations.OnlyTheHostChangesTheKeys : Prop :=
  ∀ s t : State, step s = .next t → t.keys ≠ s.keys →
    s.env.schedule.head? = some .reset ∨ ∃ k p, k ≤ 15 ∧ s.env.schedule.head? = some (.setKey k p)

/-- spec/70_reset_and_hazards.md R274 (decision D29): at a jump to itself every further step leaves the whole state
unchanged; a queued `step` only leaves the schedule (log entry 4). -/
def Obligations.EndedRunStaysAsItIs : Prop :=
  (∀ s u : State, AtStep s u → s.endedNormally → step s = .next u) ∧
  ∀ (n : Nat) (s : State), s.endedNormally → s.env.schedule = [] → Sys2Proof.core.run n s = .next s

/-- The model's own form of memory (log entry 9; spec/20_memory.md R72 "a plain function from address to byte"): two
canonical memories that read alike are the same data. -/
def Obligations.CanonicalMemoriesThatReadAlikeAreEqual : Prop :=
  ∀ m m' : Memory, m.wf = true → m'.wf = true → (∀ a, a ≤ 4095 → m.read a = m'.read a) → m = m'
end

