-- ==== Sys2Proof/Laws/Encoding.lean ====
section
/-! SUPPORT. Small lemmas of the encoder's formats: a packed word as a number, each field read back from a packed word, and
the three masks of R94 as packed words of fields. -/

namespace Sys2Proof.Laws

/-- A nibble put before a field, as a number. -/
theorem append4_toNat {n : Nat} (op : BitVec 4) (a : BitVec n) :
    (op ++ a).toNat = op.toNat * 2 ^ n + a.toNat := by
  rw [BitVec.toNat_append, Nat.shiftLeft_eq, Nat.mul_comm, ← Nat.two_pow_add_eq_or_of_lt a.isLt]

theorem packNNN_toNat (op : BitVec 4) (a : Imm12) : (packNNN op a).toNat = op.toNat * 4096 + a.toNat :=
  append4_toNat op a

theorem packXNN_toNat (op x : BitVec 4) (k : Byte) :
    (packXNN op x k).toNat = op.toNat * 4096 + x.toNat * 256 + k.toNat :=
  (append4_toNat op (x ++ k)).trans (by rw [append4_toNat x k]; ring)

theorem packXYN_toNat (op x y n : BitVec 4) :
    (packXYN op x y n).toNat = op.toNat * 4096 + x.toNat * 256 + y.toNat * 16 + n.toNat :=
  (append4_toNat op (x ++ (y ++ n))).trans (by rw [append4_toNat x (y ++ n), append4_toNat y n]; ring)

theorem nibble1_toNat (w : Word) : (nibble1 w).toNat = w.toNat / 4096 := by
  have := w.isLt
  simp [nibble1, BitVec.extractLsb'_toNat, Nat.shiftRight_eq_div_pow]
  omega

theorem fieldX_toNat (w : Word) : (fieldX w).toNat = w.toNat / 256 % 16 := by
  simp [fieldX, BitVec.extractLsb'_toNat, Nat.shiftRight_eq_div_pow]

theorem fieldY_toNat (w : Word) : (fieldY w).toNat = w.toNat / 16 % 16 := by
  simp [fieldY, BitVec.extractLsb'_toNat, Nat.shiftRight_eq_div_pow]

theorem fieldN_toNat (w : Word) : (fieldN w).toNat = w.toNat % 16 := by
  simp [fieldN, BitVec.extractLsb'_toNat]

theorem fieldNN_toNat (w : Word) : (fieldNN w).toNat = w.toNat % 256 := by
  simp [fieldNN, BitVec.extractLsb'_toNat]

theorem fieldNNN_toNat (w : Word) : (fieldNNN w).toNat = w.toNat % 4096 := by
  simp [fieldNNN, BitVec.extractLsb'_toNat]

theorem wordHi_toNat (w : Word) : (wordHi w).toNat = w.toNat / 256 := by
  have := w.isLt
  simp [wordHi, BitVec.extractLsb'_toNat, Nat.shiftRight_eq_div_pow]
  omega

theorem wordLo_toNat (w : Word) : (wordLo w).toNat = w.toNat % 256 := by
  simp [wordLo, BitVec.extractLsb'_toNat]

theorem wordOfBytes_toNat (hi lo : Byte) : (wordOfBytes hi lo).toNat = hi.toNat * 256 + lo.toNat := by
  have h := BitVec.toNat_append hi lo
  rw [Nat.shiftLeft_eq, Nat.mul_comm, ← Nat.two_pow_add_eq_or_of_lt lo.isLt] at h
  exact h.trans (by ring)

/-- The two bytes of a word give it back (R65). -/
@[simp] theorem wordOfBytes_hi_lo (w : Word) : wordOfBytes (wordHi w) (wordLo w) = w := by
  apply BitVec.eq_of_toNat_eq; rw [wordOfBytes_toNat, wordHi_toNat, wordLo_toNat]; omega

@[simp] theorem nibble1_packNNN (op : BitVec 4) (a : Imm12) : nibble1 (packNNN op a) = op := by
  have := a.isLt
  apply BitVec.eq_of_toNat_eq; rw [nibble1_toNat, packNNN_toNat]; omega

@[simp] theorem fieldNNN_packNNN (op : BitVec 4) (a : Imm12) : fieldNNN (packNNN op a) = a := by
  have := a.isLt
  apply BitVec.eq_of_toNat_eq; rw [fieldNNN_toNat, packNNN_toNat]; omega

@[simp] theorem nibble1_packXNN (op x : BitVec 4) (k : Byte) : nibble1 (packXNN op x k) = op := by
  have := x.isLt; have := k.isLt
  apply BitVec.eq_of_toNat_eq; rw [nibble1_toNat, packXNN_toNat]; omega

@[simp] theorem fieldX_packXNN (op x : BitVec 4) (k : Byte) : fieldX (packXNN op x k) = x := by
  have := x.isLt; have := k.isLt
  apply BitVec.eq_of_toNat_eq; rw [fieldX_toNat, packXNN_toNat]; omega

@[simp] theorem fieldNN_packXNN (op x : BitVec 4) (k : Byte) : fieldNN (packXNN op x k) = k := by
  have := k.isLt
  apply BitVec.eq_of_toNat_eq; rw [fieldNN_toNat, packXNN_toNat]; omega

@[simp] theorem nibble1_packXYN (op x y n : BitVec 4) : nibble1 (packXYN op x y n) = op := by
  have := x.isLt; have := y.isLt; have := n.isLt
  apply BitVec.eq_of_toNat_eq; rw [nibble1_toNat, packXYN_toNat]; omega

@[simp] theorem fieldX_packXYN (op x y n : BitVec 4) : fieldX (packXYN op x y n) = x := by
  have := x.isLt; have := y.isLt; have := n.isLt
  apply BitVec.eq_of_toNat_eq; rw [fieldX_toNat, packXYN_toNat]; omega

@[simp] theorem fieldY_packXYN (op x y n : BitVec 4) : fieldY (packXYN op x y n) = y := by
  have := y.isLt; have := n.isLt
  apply BitVec.eq_of_toNat_eq; rw [fieldY_toNat, packXYN_toNat]; omega

@[simp] theorem fieldN_packXYN (op x y n : BitVec 4) : fieldN (packXYN op x y n) = n := by
  have := n.isLt
  apply BitVec.eq_of_toNat_eq; rw [fieldN_toNat, packXYN_toNat]; omega

/-- A word is its major opcode and its address field. -/
theorem packNNN_fields (w : Word) : packNNN (nibble1 w) (fieldNNN w) = w := by
  apply BitVec.eq_of_toNat_eq; rw [packNNN_toNat, nibble1_toNat, fieldNNN_toNat]; omega

/-- A word is its major opcode, `x` and its low byte. -/
theorem packXNN_fields (w : Word) : packXNN (nibble1 w) (fieldX w) (fieldNN w) = w := by
  apply BitVec.eq_of_toNat_eq; rw [packXNN_toNat, nibble1_toNat, fieldX_toNat, fieldNN_toNat]; omega

/-- A word is its four nibbles. -/
theorem packXYN_fields (w : Word) : packXYN (nibble1 w) (fieldX w) (fieldY w) (fieldN w) = w := by
  apply BitVec.eq_of_toNat_eq
  rw [packXYN_toNat, nibble1_toNat, fieldX_toNat, fieldY_toNat, fieldN_toNat]; omega

/-- The mask of formats `NNN`, `XNN` and `XYN` keeps the major opcode. -/
theorem mask_nibble1 (w : Word) : w &&& 0xF000 = packNNN (nibble1 w) 0 := by
  apply BitVec.eq_of_getLsbD_eq; intro i hi
  have e : (packNNN (nibble1 w) 0).getLsbD i = if i < 12 then (0#12).getLsbD i else (nibble1 w).getLsbD (i - 12) :=
    BitVec.getLsbD_append ..
  rw [e]
  interval_cases i <;> simp [nibble1]

/-- The mask of format `X` keeps the major opcode and the low byte. -/
theorem mask_nibble1_low (w : Word) : w &&& 0xF0FF = packXNN (nibble1 w) 0 (fieldNN w) := by
  apply BitVec.eq_of_getLsbD_eq; intro i hi
  have e : (packXNN (nibble1 w) 0 (fieldNN w)).getLsbD i =
      if i < 12 then (0#4 ++ fieldNN w).getLsbD i else (nibble1 w).getLsbD (i - 12) := BitVec.getLsbD_append ..
  rw [e, BitVec.getLsbD_append]
  interval_cases i <;> simp [nibble1, fieldNN]

/-- The mask of format `XY` keeps the major opcode and the low nibble. -/
theorem mask_nibble1_n (w : Word) : w &&& 0xF00F = packXYN (nibble1 w) 0 0 (fieldN w) := by
  apply BitVec.eq_of_getLsbD_eq; intro i hi
  have e : (packXYN (nibble1 w) 0 0 (fieldN w)).getLsbD i =
      if i < 12 then (0#4 ++ (0#4 ++ fieldN w)).getLsbD i else (nibble1 w).getLsbD (i - 12) := BitVec.getLsbD_append ..
  rw [e, BitVec.getLsbD_append, BitVec.getLsbD_append]
  interval_cases i <;> simp [nibble1, fieldN]

end Sys2Proof.Laws
end

