-- ==== Sys2Proof/Laws/Memory.lean ====
section
/-! SUPPORT. Memory: a read after a write (R72 (b)), and that every operation keeps the canonical form. The read laws need
no premise: they hold of any list, canonical or not. -/

namespace Sys2Proof.Machine

/-! ### Read after write -/

theorem Memory.read_erase (m : Memory) (a c : Nat) :
    (m.erase a).read c = if c = a then baseByte a else m.read c := by
  induction m with
  | nil => by_cases h : c = a <;> simp [Memory.erase, Memory.read, h]
  | cons e m ih =>
    obtain ⟨k, d⟩ := e
    by_cases h : k = a
    · subst h
      rw [Memory.erase, if_pos rfl, ih]
      by_cases hc : c = k <;> simp [Memory.read, hc]
    · by_cases hc : c = k
      · subst hc; simp [Memory.erase, Memory.read, h]
      · simp [Memory.erase, Memory.read, ih, h, hc]

theorem Memory.read_insert_other (m : Memory) {a c : Nat} (b : Byte) (h : c ≠ a) :
    (m.insert a b).read c = m.read c := by
  induction m with
  | nil => simp [Memory.insert, Memory.read, h]
  | cons e m ih =>
    obtain ⟨k, d⟩ := e
    by_cases hk : a < k <;> simp [Memory.insert, Memory.read, hk, h, ih]

theorem Memory.read_insert_erase (m : Memory) (a : Nat) (b : Byte) : ((m.erase a).insert a b).read a = b := by
  induction m with
  | nil => simp [Memory.erase, Memory.insert, Memory.read]
  | cons e m ih =>
    obtain ⟨k, d⟩ := e
    by_cases h : k = a
    · simp [Memory.erase, h, ih]
    · by_cases hk : a < k
      · simp [Memory.erase, h, Memory.insert, hk, Memory.read]
      · simp [Memory.erase, h, Memory.insert, hk, Memory.read, Ne.symm h, ih]

/-- A write is seen by a read of that address and by no other. -/
theorem Memory.read_write (m : Memory) (a c : Nat) (b : Byte) :
    (m.write a b).read c = if c = a then b else m.read c := by
  unfold Memory.write
  split
  · rename_i hb; rw [Memory.read_erase, hb]
  · by_cases h : c = a
    · subst h; simp [Memory.read_insert_erase]
    · simp [Memory.read_insert_other _ _ h, Memory.read_erase, h]

@[simp] theorem Memory.read_write_same (m : Memory) (a : Nat) (b : Byte) : (m.write a b).read a = b := by
  simp [Memory.read_write]

theorem Memory.read_write_other (m : Memory) {a c : Nat} (b : Byte) (h : c ≠ a) : (m.write a b).read c = m.read c := by
  simp [Memory.read_write, h]

/-- A block write leaves every address outside the block alone. -/
theorem Memory.read_writeAll_outside (bs : List Byte) : ∀ (m : Memory) (a c : Nat), c < a ∨ a + bs.length ≤ c →
    (m.writeAll a bs).read c = m.read c := by
  induction bs with
  | nil => intro m a c _; rfl
  | cons b bs ih =>
    intro m a c h
    simp only [List.length_cons] at h
    rw [Memory.writeAll, ih _ _ _ (by omega), Memory.read_write_other _ _ (by omega)]

/-- A block write puts the `k`-th byte at the `k`-th address of the block. -/
theorem Memory.read_writeAll_inside (bs : List Byte) : ∀ (m : Memory) (a k : Nat) (h : k < bs.length),
    (m.writeAll a bs).read (a + k) = bs[k] := by
  induction bs with
  | nil => intro m a k h; exact absurd h (Nat.not_lt_zero k)
  | cons b bs ih =>
    intro m a k h
    rw [Memory.writeAll]
    cases k with
    | zero => rw [Memory.read_writeAll_outside _ _ _ _ (by omega)]; simp
    | succ k =>
      simp only [List.length_cons] at h
      have e : a + (k + 1) = (a + 1) + k := by omega
      rw [e, ih _ _ _ (by omega)]; simp

/-! ### Canonical form -/

theorem Memory.wfFrom_weaken {lo hi : Nat} (hle : lo ≤ hi) : ∀ {m : Memory}, m.wfFrom hi = true → m.wfFrom lo = true
  | [], _ => rfl
  | (c, d) :: m, h => by
    simp only [Memory.wfFrom, Bool.and_eq_true, decide_eq_true_eq] at h ⊢
    exact ⟨⟨⟨by omega, h.1.1.2⟩, h.1.2⟩, h.2⟩

theorem Memory.wfFrom_erase (a : Nat) : ∀ {m : Memory} {lo : Nat}, m.wfFrom lo = true → (m.erase a).wfFrom lo = true
  | [], _, _ => rfl
  | (c, d) :: m, lo, h => by
    simp only [Memory.wfFrom, Bool.and_eq_true, decide_eq_true_eq] at h
    unfold Memory.erase
    split
    · exact Memory.wfFrom_weaken (by omega) (Memory.wfFrom_erase a h.2)
    · simp only [Memory.wfFrom, Bool.and_eq_true, decide_eq_true_eq]
      exact ⟨h.1, Memory.wfFrom_erase a h.2⟩

theorem Memory.wfFrom_insert_erase {a : Nat} {b : Byte} (ha : a < Config.memSize) (hb : b ≠ baseByte a) :
    ∀ {m : Memory} {lo : Nat}, lo ≤ a → m.wfFrom lo = true → ((m.erase a).insert a b).wfFrom lo = true
  | [], lo, hlo, _ => by simp [Memory.erase, Memory.insert, Memory.wfFrom, hlo, ha, hb]
  | (c, d) :: m, lo, hlo, h => by
    simp only [Memory.wfFrom, Bool.and_eq_true, decide_eq_true_eq] at h
    by_cases hc : c = a
    · subst hc
      simp only [Memory.erase, if_true]
      exact Memory.wfFrom_insert_erase ha hb hlo (Memory.wfFrom_weaken (by omega) h.2)
    · by_cases hk : a < c
      · simp only [Memory.erase, hc, if_false, Memory.insert, hk, if_true, Memory.wfFrom, Bool.and_eq_true,
          decide_eq_true_eq]
        exact ⟨⟨⟨hlo, ha⟩, hb⟩, ⟨⟨⟨by omega, h.1.1.2⟩, h.1.2⟩, Memory.wfFrom_erase a h.2⟩⟩
      · simp only [Memory.erase, hc, if_false, Memory.insert, hk, Memory.wfFrom, Bool.and_eq_true, decide_eq_true_eq]
        exact ⟨h.1, Memory.wfFrom_insert_erase ha hb (by omega) h.2⟩

/-- A write inside memory keeps the canonical form. -/
theorem Memory.wf_write {m : Memory} (a : Nat) (b : Byte) (ha : a < Config.memSize) (h : m.wf = true) :
    (m.write a b).wf = true := by
  unfold Memory.write
  split
  · exact Memory.wfFrom_erase a h
  · rename_i hb; exact Memory.wfFrom_insert_erase ha hb (Nat.zero_le a) h

/-- A block write inside memory keeps the canonical form. -/
theorem Memory.wf_writeAll (bs : List Byte) : ∀ {m : Memory} (a : Nat), a + bs.length ≤ Config.memSize → m.wf = true →
    (m.writeAll a bs).wf = true := by
  induction bs with
  | nil => intro m a _ h; exact h
  | cons b bs ih =>
    intro m a ha h
    simp only [List.length_cons] at ha
    exact ih (a + 1) (by omega) (Memory.wf_write a b (by omega) h)

/-! ### The reset memory -/

theorem fontBytes_length (f : Font) : (fontBytes f).length = 80 := by simp [fontBytes, Config.fontSize]

/-- The reset memory is canonical, whatever the font. -/
theorem Memory.wf_ofFont (f : Font) : (Memory.ofFont f).wf = true :=
  Memory.wf_writeAll _ 0 (by rw [fontBytes_length]; decide) rfl

/-- The reset memory holds the font at 0 to 79 and 0 above (R36). -/
theorem Memory.read_ofFont (f : Font) (a : Nat) : (Memory.ofFont f).read a = fontByte f a := by
  by_cases h : a < 80
  · have h2 := Memory.read_writeAll_inside (fontBytes f) [] 0 a (by rw [fontBytes_length]; exact h)
    rw [Nat.zero_add] at h2
    exact h2.trans (by simp [fontBytes])
  · rw [Memory.ofFont, Memory.read_writeAll_outside _ _ _ _ (by rw [fontBytes_length]; omega)]
    simp [Memory.read, baseByte, fontByte, h]

end Sys2Proof.Machine
end

