-- ==== Sys2Proof/Laws/Registers.lean ====
section
/-! SUPPORT. Reading a register after writing one (spec/10_state.md R20: no register is hard-wired). -/

namespace Sys2Proof.Machine

/-- A register write is seen by a read of that register and by no other. -/
theorem State.getV_setV (s : State) (x r : RegIx) (b : Byte) :
    (s.setV x b).getV r = if r = x then b else s.getV r := by
  simp only [State.getV, State.setV, Vector.getElem_set, BitVec.toNat_inj]
  simp only [eq_comm]

@[simp] theorem State.getV_setV_same (s : State) (x : RegIx) (b : Byte) : (s.setV x b).getV x = b := by
  simp [State.getV_setV]

theorem State.getV_setV_other (s : State) {x r : RegIx} (b : Byte) (h : r ≠ x) : (s.setV x b).getV r = s.getV r := by
  simp [State.getV_setV, h]

/-- What `setVs` leaves: register `r` in the written range has its byte, every other its old value. -/
theorem State.getV_setVs (bs : List Byte) : ∀ (s : State) (k : Nat) (r : RegIx), k + bs.length ≤ 16 →
    (s.setVs k bs).getV r = if k ≤ r.toNat then bs.getD (r.toNat - k) (s.getV r) else s.getV r := by
  induction bs with
  | nil => intro s k r _; simp [State.setVs]
  | cons b bs ih =>
    intro s k r hk
    simp only [List.length_cons] at hk
    rw [State.setVs, ih _ _ _ (by omega), State.getV_setV]
    have hx : r = BitVec.ofNat 4 k ↔ r.toNat = k := by
      rw [← BitVec.toNat_inj, BitVec.toNat_ofNat, Nat.mod_eq_of_lt (by omega)]
    rcases Nat.lt_trichotomy r.toNat k with h | h | h
    · have h1 : ¬ k + 1 ≤ r.toNat := by omega
      have h2 : ¬ k ≤ r.toNat := by omega
      simp [h1, h2, hx, Nat.ne_of_lt h]
    · subst h; simp
    · have h1 : k + 1 ≤ r.toNat := h
      have h2 : k ≤ r.toNat := by omega
      have h3 : r.toNat - k = (r.toNat - (k + 1)) + 1 := by omega
      simp [h1, h2, h3, hx, Nat.ne_of_gt h]

/-- `setVs` writes registers only. -/
theorem State.setVs_eq (bs : List Byte) : ∀ (s : State) (k : Nat), s.setVs k bs = { s with v := (s.setVs k bs).v } := by
  induction bs with
  | nil => intro s k; rfl
  | cons b bs ih => intro s k; rw [State.setVs, ih]; rfl

@[simp] theorem State.setVs_i (s : State) (k : Nat) (bs : List Byte) : (s.setVs k bs).i = s.i := by
  rw [State.setVs_eq]
@[simp] theorem State.setVs_pc (s : State) (k : Nat) (bs : List Byte) : (s.setVs k bs).pc = s.pc := by
  rw [State.setVs_eq]
@[simp] theorem State.setVs_sp (s : State) (k : Nat) (bs : List Byte) : (s.setVs k bs).sp = s.sp := by
  rw [State.setVs_eq]
@[simp] theorem State.setVs_stack (s : State) (k : Nat) (bs : List Byte) : (s.setVs k bs).stack = s.stack := by
  rw [State.setVs_eq]
@[simp] theorem State.setVs_dt (s : State) (k : Nat) (bs : List Byte) : (s.setVs k bs).dt = s.dt := by
  rw [State.setVs_eq]
@[simp] theorem State.setVs_st (s : State) (k : Nat) (bs : List Byte) : (s.setVs k bs).st = s.st := by
  rw [State.setVs_eq]
@[simp] theorem State.setVs_keys (s : State) (k : Nat) (bs : List Byte) : (s.setVs k bs).keys = s.keys := by
  rw [State.setVs_eq]
@[simp] theorem State.setVs_fb (s : State) (k : Nat) (bs : List Byte) : (s.setVs k bs).fb = s.fb := by
  rw [State.setVs_eq]
@[simp] theorem State.setVs_mem (s : State) (k : Nat) (bs : List Byte) : (s.setVs k bs).mem = s.mem := by
  rw [State.setVs_eq]
@[simp] theorem State.setVs_mode (s : State) (k : Nat) (bs : List Byte) : (s.setVs k bs).mode = s.mode := by
  rw [State.setVs_eq]
@[simp] theorem State.setVs_waitReg (s : State) (k : Nat) (bs : List Byte) : (s.setVs k bs).waitReg = s.waitReg := by
  rw [State.setVs_eq]
@[simp] theorem State.setVs_cause (s : State) (k : Nat) (bs : List Byte) : (s.setVs k bs).cause = s.cause := by
  rw [State.setVs_eq]
@[simp] theorem State.setVs_faultPc (s : State) (k : Nat) (bs : List Byte) : (s.setVs k bs).faultPc = s.faultPc := by
  rw [State.setVs_eq]
@[simp] theorem State.setVs_faultOp (s : State) (k : Nat) (bs : List Byte) : (s.setVs k bs).faultOp = s.faultOp := by
  rw [State.setVs_eq]
@[simp] theorem State.setVs_faultInfo (s : State) (k : Nat) (bs : List Byte) : (s.setVs k bs).faultInfo = s.faultInfo := by
  rw [State.setVs_eq]
@[simp] theorem State.setVs_env (s : State) (k : Nat) (bs : List Byte) : (s.setVs k bs).env = s.env := by
  rw [State.setVs_eq]

end Sys2Proof.Machine
end

