-- ==== Sys2Proof/Laws/State.lean ====
section
/-! SUPPORT. One lemma per field of State per update, true by rfl, so that no later proof unfolds a record update; the same
for the accessors of Operands.lean. The derived updates `advance`, `setFlag` and `emit` are rewritten to the primitive
ones, which are the simp normal form. -/

namespace Sys2Proof.Machine

@[simp] theorem State.advance_eq (s : State) : s.advance = s.setPc (s.pc + 2) := rfl
@[simp] theorem State.setFlag_eq (s : State) (f : Bool) : s.setFlag f = s.setV 15 (flagByte f) := rfl
@[simp] theorem State.emit_eq (s : State) (o : Output) :
    s.emit o = s.setEnv { s.env with outputs := s.env.outputs ++ [o] } := rfl
@[simp] theorem State.skipIf_true (s : State) : s.skipIf true = s.setPc (s.pc + 2) := rfl
@[simp] theorem State.skipIf_false (s : State) : s.skipIf false = s := rfl

/-- A skip changes nothing but `PC`, by 2 when it is taken (R127). -/
theorem State.skipIf_eq (s : State) (c : Bool) : s.skipIf c = s.setPc (if c then s.pc + 2 else s.pc) := by
  cases c <;> rfl

/-! ### `setV` -/

@[simp] theorem State.setV_v (s : State) (x : RegIx) (b : Byte) : (s.setV x b).v = s.v.set x.toNat b x.isLt := rfl
@[simp] theorem State.setV_i (s : State) (x : RegIx) (b : Byte) : (s.setV x b).i = s.i := rfl
@[simp] theorem State.setV_pc (s : State) (x : RegIx) (b : Byte) : (s.setV x b).pc = s.pc := rfl
@[simp] theorem State.setV_sp (s : State) (x : RegIx) (b : Byte) : (s.setV x b).sp = s.sp := rfl
@[simp] theorem State.setV_stack (s : State) (x : RegIx) (b : Byte) : (s.setV x b).stack = s.stack := rfl
@[simp] theorem State.setV_dt (s : State) (x : RegIx) (b : Byte) : (s.setV x b).dt = s.dt := rfl
@[simp] theorem State.setV_st (s : State) (x : RegIx) (b : Byte) : (s.setV x b).st = s.st := rfl
@[simp] theorem State.setV_keys (s : State) (x : RegIx) (b : Byte) : (s.setV x b).keys = s.keys := rfl
@[simp] theorem State.setV_fb (s : State) (x : RegIx) (b : Byte) : (s.setV x b).fb = s.fb := rfl
@[simp] theorem State.setV_mem (s : State) (x : RegIx) (b : Byte) : (s.setV x b).mem = s.mem := rfl
@[simp] theorem State.setV_mode (s : State) (x : RegIx) (b : Byte) : (s.setV x b).mode = s.mode := rfl
@[simp] theorem State.setV_waitReg (s : State) (x : RegIx) (b : Byte) : (s.setV x b).waitReg = s.waitReg := rfl
@[simp] theorem State.setV_cause (s : State) (x : RegIx) (b : Byte) : (s.setV x b).cause = s.cause := rfl
@[simp] theorem State.setV_faultPc (s : State) (x : RegIx) (b : Byte) : (s.setV x b).faultPc = s.faultPc := rfl
@[simp] theorem State.setV_faultOp (s : State) (x : RegIx) (b : Byte) : (s.setV x b).faultOp = s.faultOp := rfl
@[simp] theorem State.setV_faultInfo (s : State) (x : RegIx) (b : Byte) : (s.setV x b).faultInfo = s.faultInfo := rfl
@[simp] theorem State.setV_env (s : State) (x : RegIx) (b : Byte) : (s.setV x b).env = s.env := rfl
@[simp] theorem State.setV_cell (s : State) (x : RegIx) (b : Byte) (cx : Fin 64) (cy : Fin 32) : (s.setV x b).cell cx cy = s.cell cx cy := rfl
@[simp] theorem State.setV_lowestKey (s : State) (x : RegIx) (b : Byte) : (s.setV x b).lowestKey = s.lowestKey := rfl
@[simp] theorem State.setV_effAddr (s : State) (x : RegIx) (b : Byte) (k : Nat) : (s.setV x b).effAddr k = s.effAddr k := rfl
@[simp] theorem State.setV_keyDown (s : State) (x : RegIx) (b : Byte) (k : Nat) : (s.setV x b).keyDown k = s.keyDown k := rfl

/-! ### `setI` -/

@[simp] theorem State.setI_v (s : State) (w : Word) : (s.setI w).v = s.v := rfl
@[simp] theorem State.setI_i (s : State) (w : Word) : (s.setI w).i = w := rfl
@[simp] theorem State.setI_pc (s : State) (w : Word) : (s.setI w).pc = s.pc := rfl
@[simp] theorem State.setI_sp (s : State) (w : Word) : (s.setI w).sp = s.sp := rfl
@[simp] theorem State.setI_stack (s : State) (w : Word) : (s.setI w).stack = s.stack := rfl
@[simp] theorem State.setI_dt (s : State) (w : Word) : (s.setI w).dt = s.dt := rfl
@[simp] theorem State.setI_st (s : State) (w : Word) : (s.setI w).st = s.st := rfl
@[simp] theorem State.setI_keys (s : State) (w : Word) : (s.setI w).keys = s.keys := rfl
@[simp] theorem State.setI_fb (s : State) (w : Word) : (s.setI w).fb = s.fb := rfl
@[simp] theorem State.setI_mem (s : State) (w : Word) : (s.setI w).mem = s.mem := rfl
@[simp] theorem State.setI_mode (s : State) (w : Word) : (s.setI w).mode = s.mode := rfl
@[simp] theorem State.setI_waitReg (s : State) (w : Word) : (s.setI w).waitReg = s.waitReg := rfl
@[simp] theorem State.setI_cause (s : State) (w : Word) : (s.setI w).cause = s.cause := rfl
@[simp] theorem State.setI_faultPc (s : State) (w : Word) : (s.setI w).faultPc = s.faultPc := rfl
@[simp] theorem State.setI_faultOp (s : State) (w : Word) : (s.setI w).faultOp = s.faultOp := rfl
@[simp] theorem State.setI_faultInfo (s : State) (w : Word) : (s.setI w).faultInfo = s.faultInfo := rfl
@[simp] theorem State.setI_env (s : State) (w : Word) : (s.setI w).env = s.env := rfl
@[simp] theorem State.setI_getV (s : State) (w : Word) (r : RegIx) : (s.setI w).getV r = s.getV r := rfl
@[simp] theorem State.setI_cell (s : State) (w : Word) (cx : Fin 64) (cy : Fin 32) : (s.setI w).cell cx cy = s.cell cx cy := rfl
@[simp] theorem State.setI_lowestKey (s : State) (w : Word) : (s.setI w).lowestKey = s.lowestKey := rfl
@[simp] theorem State.setI_keyDown (s : State) (w : Word) (k : Nat) : (s.setI w).keyDown k = s.keyDown k := rfl

/-! ### `setPc` -/

@[simp] theorem State.setPc_v (s : State) (w : Word) : (s.setPc w).v = s.v := rfl
@[simp] theorem State.setPc_i (s : State) (w : Word) : (s.setPc w).i = s.i := rfl
@[simp] theorem State.setPc_pc (s : State) (w : Word) : (s.setPc w).pc = w := rfl
@[simp] theorem State.setPc_sp (s : State) (w : Word) : (s.setPc w).sp = s.sp := rfl
@[simp] theorem State.setPc_stack (s : State) (w : Word) : (s.setPc w).stack = s.stack := rfl
@[simp] theorem State.setPc_dt (s : State) (w : Word) : (s.setPc w).dt = s.dt := rfl
@[simp] theorem State.setPc_st (s : State) (w : Word) : (s.setPc w).st = s.st := rfl
@[simp] theorem State.setPc_keys (s : State) (w : Word) : (s.setPc w).keys = s.keys := rfl
@[simp] theorem State.setPc_fb (s : State) (w : Word) : (s.setPc w).fb = s.fb := rfl
@[simp] theorem State.setPc_mem (s : State) (w : Word) : (s.setPc w).mem = s.mem := rfl
@[simp] theorem State.setPc_mode (s : State) (w : Word) : (s.setPc w).mode = s.mode := rfl
@[simp] theorem State.setPc_waitReg (s : State) (w : Word) : (s.setPc w).waitReg = s.waitReg := rfl
@[simp] theorem State.setPc_cause (s : State) (w : Word) : (s.setPc w).cause = s.cause := rfl
@[simp] theorem State.setPc_faultPc (s : State) (w : Word) : (s.setPc w).faultPc = s.faultPc := rfl
@[simp] theorem State.setPc_faultOp (s : State) (w : Word) : (s.setPc w).faultOp = s.faultOp := rfl
@[simp] theorem State.setPc_faultInfo (s : State) (w : Word) : (s.setPc w).faultInfo = s.faultInfo := rfl
@[simp] theorem State.setPc_env (s : State) (w : Word) : (s.setPc w).env = s.env := rfl
@[simp] theorem State.setPc_getV (s : State) (w : Word) (r : RegIx) : (s.setPc w).getV r = s.getV r := rfl
@[simp] theorem State.setPc_cell (s : State) (w : Word) (cx : Fin 64) (cy : Fin 32) : (s.setPc w).cell cx cy = s.cell cx cy := rfl
@[simp] theorem State.setPc_lowestKey (s : State) (w : Word) : (s.setPc w).lowestKey = s.lowestKey := rfl
@[simp] theorem State.setPc_effAddr (s : State) (w : Word) (k : Nat) : (s.setPc w).effAddr k = s.effAddr k := rfl
@[simp] theorem State.setPc_keyDown (s : State) (w : Word) (k : Nat) : (s.setPc w).keyDown k = s.keyDown k := rfl

/-! ### `setDt` -/

@[simp] theorem State.setDt_v (s : State) (b : Byte) : (s.setDt b).v = s.v := rfl
@[simp] theorem State.setDt_i (s : State) (b : Byte) : (s.setDt b).i = s.i := rfl
@[simp] theorem State.setDt_pc (s : State) (b : Byte) : (s.setDt b).pc = s.pc := rfl
@[simp] theorem State.setDt_sp (s : State) (b : Byte) : (s.setDt b).sp = s.sp := rfl
@[simp] theorem State.setDt_stack (s : State) (b : Byte) : (s.setDt b).stack = s.stack := rfl
@[simp] theorem State.setDt_dt (s : State) (b : Byte) : (s.setDt b).dt = b := rfl
@[simp] theorem State.setDt_st (s : State) (b : Byte) : (s.setDt b).st = s.st := rfl
@[simp] theorem State.setDt_keys (s : State) (b : Byte) : (s.setDt b).keys = s.keys := rfl
@[simp] theorem State.setDt_fb (s : State) (b : Byte) : (s.setDt b).fb = s.fb := rfl
@[simp] theorem State.setDt_mem (s : State) (b : Byte) : (s.setDt b).mem = s.mem := rfl
@[simp] theorem State.setDt_mode (s : State) (b : Byte) : (s.setDt b).mode = s.mode := rfl
@[simp] theorem State.setDt_waitReg (s : State) (b : Byte) : (s.setDt b).waitReg = s.waitReg := rfl
@[simp] theorem State.setDt_cause (s : State) (b : Byte) : (s.setDt b).cause = s.cause := rfl
@[simp] theorem State.setDt_faultPc (s : State) (b : Byte) : (s.setDt b).faultPc = s.faultPc := rfl
@[simp] theorem State.setDt_faultOp (s : State) (b : Byte) : (s.setDt b).faultOp = s.faultOp := rfl
@[simp] theorem State.setDt_faultInfo (s : State) (b : Byte) : (s.setDt b).faultInfo = s.faultInfo := rfl
@[simp] theorem State.setDt_env (s : State) (b : Byte) : (s.setDt b).env = s.env := rfl
@[simp] theorem State.setDt_getV (s : State) (b : Byte) (r : RegIx) : (s.setDt b).getV r = s.getV r := rfl
@[simp] theorem State.setDt_cell (s : State) (b : Byte) (cx : Fin 64) (cy : Fin 32) : (s.setDt b).cell cx cy = s.cell cx cy := rfl
@[simp] theorem State.setDt_lowestKey (s : State) (b : Byte) : (s.setDt b).lowestKey = s.lowestKey := rfl
@[simp] theorem State.setDt_effAddr (s : State) (b : Byte) (k : Nat) : (s.setDt b).effAddr k = s.effAddr k := rfl
@[simp] theorem State.setDt_keyDown (s : State) (b : Byte) (k : Nat) : (s.setDt b).keyDown k = s.keyDown k := rfl

/-! ### `setSt` -/

@[simp] theorem State.setSt_v (s : State) (b : Byte) : (s.setSt b).v = s.v := rfl
@[simp] theorem State.setSt_i (s : State) (b : Byte) : (s.setSt b).i = s.i := rfl
@[simp] theorem State.setSt_pc (s : State) (b : Byte) : (s.setSt b).pc = s.pc := rfl
@[simp] theorem State.setSt_sp (s : State) (b : Byte) : (s.setSt b).sp = s.sp := rfl
@[simp] theorem State.setSt_stack (s : State) (b : Byte) : (s.setSt b).stack = s.stack := rfl
@[simp] theorem State.setSt_dt (s : State) (b : Byte) : (s.setSt b).dt = s.dt := rfl
@[simp] theorem State.setSt_st (s : State) (b : Byte) : (s.setSt b).st = b := rfl
@[simp] theorem State.setSt_keys (s : State) (b : Byte) : (s.setSt b).keys = s.keys := rfl
@[simp] theorem State.setSt_fb (s : State) (b : Byte) : (s.setSt b).fb = s.fb := rfl
@[simp] theorem State.setSt_mem (s : State) (b : Byte) : (s.setSt b).mem = s.mem := rfl
@[simp] theorem State.setSt_mode (s : State) (b : Byte) : (s.setSt b).mode = s.mode := rfl
@[simp] theorem State.setSt_waitReg (s : State) (b : Byte) : (s.setSt b).waitReg = s.waitReg := rfl
@[simp] theorem State.setSt_cause (s : State) (b : Byte) : (s.setSt b).cause = s.cause := rfl
@[simp] theorem State.setSt_faultPc (s : State) (b : Byte) : (s.setSt b).faultPc = s.faultPc := rfl
@[simp] theorem State.setSt_faultOp (s : State) (b : Byte) : (s.setSt b).faultOp = s.faultOp := rfl
@[simp] theorem State.setSt_faultInfo (s : State) (b : Byte) : (s.setSt b).faultInfo = s.faultInfo := rfl
@[simp] theorem State.setSt_env (s : State) (b : Byte) : (s.setSt b).env = s.env := rfl
@[simp] theorem State.setSt_getV (s : State) (b : Byte) (r : RegIx) : (s.setSt b).getV r = s.getV r := rfl
@[simp] theorem State.setSt_cell (s : State) (b : Byte) (cx : Fin 64) (cy : Fin 32) : (s.setSt b).cell cx cy = s.cell cx cy := rfl
@[simp] theorem State.setSt_lowestKey (s : State) (b : Byte) : (s.setSt b).lowestKey = s.lowestKey := rfl
@[simp] theorem State.setSt_effAddr (s : State) (b : Byte) (k : Nat) : (s.setSt b).effAddr k = s.effAddr k := rfl
@[simp] theorem State.setSt_keyDown (s : State) (b : Byte) (k : Nat) : (s.setSt b).keyDown k = s.keyDown k := rfl

/-! ### `setKeys` -/

@[simp] theorem State.setKeys_v (s : State) (k : KeyLatch) : (s.setKeys k).v = s.v := rfl
@[simp] theorem State.setKeys_i (s : State) (k : KeyLatch) : (s.setKeys k).i = s.i := rfl
@[simp] theorem State.setKeys_pc (s : State) (k : KeyLatch) : (s.setKeys k).pc = s.pc := rfl
@[simp] theorem State.setKeys_sp (s : State) (k : KeyLatch) : (s.setKeys k).sp = s.sp := rfl
@[simp] theorem State.setKeys_stack (s : State) (k : KeyLatch) : (s.setKeys k).stack = s.stack := rfl
@[simp] theorem State.setKeys_dt (s : State) (k : KeyLatch) : (s.setKeys k).dt = s.dt := rfl
@[simp] theorem State.setKeys_st (s : State) (k : KeyLatch) : (s.setKeys k).st = s.st := rfl
@[simp] theorem State.setKeys_keys (s : State) (k : KeyLatch) : (s.setKeys k).keys = k := rfl
@[simp] theorem State.setKeys_fb (s : State) (k : KeyLatch) : (s.setKeys k).fb = s.fb := rfl
@[simp] theorem State.setKeys_mem (s : State) (k : KeyLatch) : (s.setKeys k).mem = s.mem := rfl
@[simp] theorem State.setKeys_mode (s : State) (k : KeyLatch) : (s.setKeys k).mode = s.mode := rfl
@[simp] theorem State.setKeys_waitReg (s : State) (k : KeyLatch) : (s.setKeys k).waitReg = s.waitReg := rfl
@[simp] theorem State.setKeys_cause (s : State) (k : KeyLatch) : (s.setKeys k).cause = s.cause := rfl
@[simp] theorem State.setKeys_faultPc (s : State) (k : KeyLatch) : (s.setKeys k).faultPc = s.faultPc := rfl
@[simp] theorem State.setKeys_faultOp (s : State) (k : KeyLatch) : (s.setKeys k).faultOp = s.faultOp := rfl
@[simp] theorem State.setKeys_faultInfo (s : State) (k : KeyLatch) : (s.setKeys k).faultInfo = s.faultInfo := rfl
@[simp] theorem State.setKeys_env (s : State) (k : KeyLatch) : (s.setKeys k).env = s.env := rfl
@[simp] theorem State.setKeys_getV (s : State) (k : KeyLatch) (r : RegIx) : (s.setKeys k).getV r = s.getV r := rfl
@[simp] theorem State.setKeys_cell (s : State) (k : KeyLatch) (cx : Fin 64) (cy : Fin 32) : (s.setKeys k).cell cx cy = s.cell cx cy := rfl
@[simp] theorem State.setKeys_effAddr (s : State) (k : KeyLatch) (j : Nat) : (s.setKeys k).effAddr j = s.effAddr j := rfl

/-! ### `setFb` -/

@[simp] theorem State.setFb_v (s : State) (f : Framebuffer) : (s.setFb f).v = s.v := rfl
@[simp] theorem State.setFb_i (s : State) (f : Framebuffer) : (s.setFb f).i = s.i := rfl
@[simp] theorem State.setFb_pc (s : State) (f : Framebuffer) : (s.setFb f).pc = s.pc := rfl
@[simp] theorem State.setFb_sp (s : State) (f : Framebuffer) : (s.setFb f).sp = s.sp := rfl
@[simp] theorem State.setFb_stack (s : State) (f : Framebuffer) : (s.setFb f).stack = s.stack := rfl
@[simp] theorem State.setFb_dt (s : State) (f : Framebuffer) : (s.setFb f).dt = s.dt := rfl
@[simp] theorem State.setFb_st (s : State) (f : Framebuffer) : (s.setFb f).st = s.st := rfl
@[simp] theorem State.setFb_keys (s : State) (f : Framebuffer) : (s.setFb f).keys = s.keys := rfl
@[simp] theorem State.setFb_fb (s : State) (f : Framebuffer) : (s.setFb f).fb = f := rfl
@[simp] theorem State.setFb_mem (s : State) (f : Framebuffer) : (s.setFb f).mem = s.mem := rfl
@[simp] theorem State.setFb_mode (s : State) (f : Framebuffer) : (s.setFb f).mode = s.mode := rfl
@[simp] theorem State.setFb_waitReg (s : State) (f : Framebuffer) : (s.setFb f).waitReg = s.waitReg := rfl
@[simp] theorem State.setFb_cause (s : State) (f : Framebuffer) : (s.setFb f).cause = s.cause := rfl
@[simp] theorem State.setFb_faultPc (s : State) (f : Framebuffer) : (s.setFb f).faultPc = s.faultPc := rfl
@[simp] theorem State.setFb_faultOp (s : State) (f : Framebuffer) : (s.setFb f).faultOp = s.faultOp := rfl
@[simp] theorem State.setFb_faultInfo (s : State) (f : Framebuffer) : (s.setFb f).faultInfo = s.faultInfo := rfl
@[simp] theorem State.setFb_env (s : State) (f : Framebuffer) : (s.setFb f).env = s.env := rfl
@[simp] theorem State.setFb_getV (s : State) (f : Framebuffer) (r : RegIx) : (s.setFb f).getV r = s.getV r := rfl
@[simp] theorem State.setFb_lowestKey (s : State) (f : Framebuffer) : (s.setFb f).lowestKey = s.lowestKey := rfl
@[simp] theorem State.setFb_effAddr (s : State) (f : Framebuffer) (k : Nat) : (s.setFb f).effAddr k = s.effAddr k := rfl
@[simp] theorem State.setFb_keyDown (s : State) (f : Framebuffer) (k : Nat) : (s.setFb f).keyDown k = s.keyDown k := rfl

/-! ### `setMem` -/

@[simp] theorem State.setMem_v (s : State) (m : Memory) : (s.setMem m).v = s.v := rfl
@[simp] theorem State.setMem_i (s : State) (m : Memory) : (s.setMem m).i = s.i := rfl
@[simp] theorem State.setMem_pc (s : State) (m : Memory) : (s.setMem m).pc = s.pc := rfl
@[simp] theorem State.setMem_sp (s : State) (m : Memory) : (s.setMem m).sp = s.sp := rfl
@[simp] theorem State.setMem_stack (s : State) (m : Memory) : (s.setMem m).stack = s.stack := rfl
@[simp] theorem State.setMem_dt (s : State) (m : Memory) : (s.setMem m).dt = s.dt := rfl
@[simp] theorem State.setMem_st (s : State) (m : Memory) : (s.setMem m).st = s.st := rfl
@[simp] theorem State.setMem_keys (s : State) (m : Memory) : (s.setMem m).keys = s.keys := rfl
@[simp] theorem State.setMem_fb (s : State) (m : Memory) : (s.setMem m).fb = s.fb := rfl
@[simp] theorem State.setMem_mem (s : State) (m : Memory) : (s.setMem m).mem = m := rfl
@[simp] theorem State.setMem_mode (s : State) (m : Memory) : (s.setMem m).mode = s.mode := rfl
@[simp] theorem State.setMem_waitReg (s : State) (m : Memory) : (s.setMem m).waitReg = s.waitReg := rfl
@[simp] theorem State.setMem_cause (s : State) (m : Memory) : (s.setMem m).cause = s.cause := rfl
@[simp] theorem State.setMem_faultPc (s : State) (m : Memory) : (s.setMem m).faultPc = s.faultPc := rfl
@[simp] theorem State.setMem_faultOp (s : State) (m : Memory) : (s.setMem m).faultOp = s.faultOp := rfl
@[simp] theorem State.setMem_faultInfo (s : State) (m : Memory) : (s.setMem m).faultInfo = s.faultInfo := rfl
@[simp] theorem State.setMem_env (s : State) (m : Memory) : (s.setMem m).env = s.env := rfl
@[simp] theorem State.setMem_getV (s : State) (m : Memory) (r : RegIx) : (s.setMem m).getV r = s.getV r := rfl
@[simp] theorem State.setMem_cell (s : State) (m : Memory) (cx : Fin 64) (cy : Fin 32) : (s.setMem m).cell cx cy = s.cell cx cy := rfl
@[simp] theorem State.setMem_lowestKey (s : State) (m : Memory) : (s.setMem m).lowestKey = s.lowestKey := rfl
@[simp] theorem State.setMem_effAddr (s : State) (m : Memory) (k : Nat) : (s.setMem m).effAddr k = s.effAddr k := rfl
@[simp] theorem State.setMem_keyDown (s : State) (m : Memory) (k : Nat) : (s.setMem m).keyDown k = s.keyDown k := rfl

/-! ### `setStack` -/

@[simp] theorem State.setStack_v (s : State) (p : Fin 17) (st : Vector Word 16) : (s.setStack p st).v = s.v := rfl
@[simp] theorem State.setStack_i (s : State) (p : Fin 17) (st : Vector Word 16) : (s.setStack p st).i = s.i := rfl
@[simp] theorem State.setStack_pc (s : State) (p : Fin 17) (st : Vector Word 16) : (s.setStack p st).pc = s.pc := rfl
@[simp] theorem State.setStack_sp (s : State) (p : Fin 17) (st : Vector Word 16) : (s.setStack p st).sp = p := rfl
@[simp] theorem State.setStack_stack (s : State) (p : Fin 17) (st : Vector Word 16) : (s.setStack p st).stack = st := rfl
@[simp] theorem State.setStack_dt (s : State) (p : Fin 17) (st : Vector Word 16) : (s.setStack p st).dt = s.dt := rfl
@[simp] theorem State.setStack_st (s : State) (p : Fin 17) (st : Vector Word 16) : (s.setStack p st).st = s.st := rfl
@[simp] theorem State.setStack_keys (s : State) (p : Fin 17) (st : Vector Word 16) : (s.setStack p st).keys = s.keys := rfl
@[simp] theorem State.setStack_fb (s : State) (p : Fin 17) (st : Vector Word 16) : (s.setStack p st).fb = s.fb := rfl
@[simp] theorem State.setStack_mem (s : State) (p : Fin 17) (st : Vector Word 16) : (s.setStack p st).mem = s.mem := rfl
@[simp] theorem State.setStack_mode (s : State) (p : Fin 17) (st : Vector Word 16) : (s.setStack p st).mode = s.mode := rfl
@[simp] theorem State.setStack_waitReg (s : State) (p : Fin 17) (st : Vector Word 16) : (s.setStack p st).waitReg = s.waitReg := rfl
@[simp] theorem State.setStack_cause (s : State) (p : Fin 17) (st : Vector Word 16) : (s.setStack p st).cause = s.cause := rfl
@[simp] theorem State.setStack_faultPc (s : State) (p : Fin 17) (st : Vector Word 16) : (s.setStack p st).faultPc = s.faultPc := rfl
@[simp] theorem State.setStack_faultOp (s : State) (p : Fin 17) (st : Vector Word 16) : (s.setStack p st).faultOp = s.faultOp := rfl
@[simp] theorem State.setStack_faultInfo (s : State) (p : Fin 17) (st : Vector Word 16) : (s.setStack p st).faultInfo = s.faultInfo := rfl
@[simp] theorem State.setStack_env (s : State) (p : Fin 17) (st : Vector Word 16) : (s.setStack p st).env = s.env := rfl
@[simp] theorem State.setStack_getV (s : State) (p : Fin 17) (st : Vector Word 16) (r : RegIx) : (s.setStack p st).getV r = s.getV r := rfl
@[simp] theorem State.setStack_cell (s : State) (p : Fin 17) (st : Vector Word 16) (cx : Fin 64) (cy : Fin 32) : (s.setStack p st).cell cx cy = s.cell cx cy := rfl
@[simp] theorem State.setStack_lowestKey (s : State) (p : Fin 17) (st : Vector Word 16) : (s.setStack p st).lowestKey = s.lowestKey := rfl
@[simp] theorem State.setStack_effAddr (s : State) (p : Fin 17) (st : Vector Word 16) (k : Nat) : (s.setStack p st).effAddr k = s.effAddr k := rfl
@[simp] theorem State.setStack_keyDown (s : State) (p : Fin 17) (st : Vector Word 16) (k : Nat) : (s.setStack p st).keyDown k = s.keyDown k := rfl

/-! ### `setEnv` -/

@[simp] theorem State.setEnv_v (s : State) (e : Env) : (s.setEnv e).v = s.v := rfl
@[simp] theorem State.setEnv_i (s : State) (e : Env) : (s.setEnv e).i = s.i := rfl
@[simp] theorem State.setEnv_pc (s : State) (e : Env) : (s.setEnv e).pc = s.pc := rfl
@[simp] theorem State.setEnv_sp (s : State) (e : Env) : (s.setEnv e).sp = s.sp := rfl
@[simp] theorem State.setEnv_stack (s : State) (e : Env) : (s.setEnv e).stack = s.stack := rfl
@[simp] theorem State.setEnv_dt (s : State) (e : Env) : (s.setEnv e).dt = s.dt := rfl
@[simp] theorem State.setEnv_st (s : State) (e : Env) : (s.setEnv e).st = s.st := rfl
@[simp] theorem State.setEnv_keys (s : State) (e : Env) : (s.setEnv e).keys = s.keys := rfl
@[simp] theorem State.setEnv_fb (s : State) (e : Env) : (s.setEnv e).fb = s.fb := rfl
@[simp] theorem State.setEnv_mem (s : State) (e : Env) : (s.setEnv e).mem = s.mem := rfl
@[simp] theorem State.setEnv_mode (s : State) (e : Env) : (s.setEnv e).mode = s.mode := rfl
@[simp] theorem State.setEnv_waitReg (s : State) (e : Env) : (s.setEnv e).waitReg = s.waitReg := rfl
@[simp] theorem State.setEnv_cause (s : State) (e : Env) : (s.setEnv e).cause = s.cause := rfl
@[simp] theorem State.setEnv_faultPc (s : State) (e : Env) : (s.setEnv e).faultPc = s.faultPc := rfl
@[simp] theorem State.setEnv_faultOp (s : State) (e : Env) : (s.setEnv e).faultOp = s.faultOp := rfl
@[simp] theorem State.setEnv_faultInfo (s : State) (e : Env) : (s.setEnv e).faultInfo = s.faultInfo := rfl
@[simp] theorem State.setEnv_env (s : State) (e : Env) : (s.setEnv e).env = e := rfl
@[simp] theorem State.setEnv_getV (s : State) (e : Env) (r : RegIx) : (s.setEnv e).getV r = s.getV r := rfl
@[simp] theorem State.setEnv_cell (s : State) (e : Env) (cx : Fin 64) (cy : Fin 32) : (s.setEnv e).cell cx cy = s.cell cx cy := rfl
@[simp] theorem State.setEnv_lowestKey (s : State) (e : Env) : (s.setEnv e).lowestKey = s.lowestKey := rfl
@[simp] theorem State.setEnv_effAddr (s : State) (e : Env) (k : Nat) : (s.setEnv e).effAddr k = s.effAddr k := rfl
@[simp] theorem State.setEnv_keyDown (s : State) (e : Env) (k : Nat) : (s.setEnv e).keyDown k = s.keyDown k := rfl

/-! ### `enterFault` -/

@[simp] theorem State.enterFault_v (s : State) (r : Raise) (op : Word) : (s.enterFault r op).v = s.v := rfl
@[simp] theorem State.enterFault_i (s : State) (r : Raise) (op : Word) : (s.enterFault r op).i = s.i := rfl
@[simp] theorem State.enterFault_pc (s : State) (r : Raise) (op : Word) : (s.enterFault r op).pc = s.pc := rfl
@[simp] theorem State.enterFault_sp (s : State) (r : Raise) (op : Word) : (s.enterFault r op).sp = s.sp := rfl
@[simp] theorem State.enterFault_stack (s : State) (r : Raise) (op : Word) : (s.enterFault r op).stack = s.stack := rfl
@[simp] theorem State.enterFault_dt (s : State) (r : Raise) (op : Word) : (s.enterFault r op).dt = s.dt := rfl
@[simp] theorem State.enterFault_st (s : State) (r : Raise) (op : Word) : (s.enterFault r op).st = s.st := rfl
@[simp] theorem State.enterFault_keys (s : State) (r : Raise) (op : Word) : (s.enterFault r op).keys = s.keys := rfl
@[simp] theorem State.enterFault_fb (s : State) (r : Raise) (op : Word) : (s.enterFault r op).fb = s.fb := rfl
@[simp] theorem State.enterFault_mem (s : State) (r : Raise) (op : Word) : (s.enterFault r op).mem = s.mem := rfl
@[simp] theorem State.enterFault_mode (s : State) (r : Raise) (op : Word) : (s.enterFault r op).mode = .faulted := rfl
@[simp] theorem State.enterFault_waitReg (s : State) (r : Raise) (op : Word) : (s.enterFault r op).waitReg = s.waitReg := rfl
@[simp] theorem State.enterFault_cause (s : State) (r : Raise) (op : Word) : (s.enterFault r op).cause = r.cause := rfl
@[simp] theorem State.enterFault_faultPc (s : State) (r : Raise) (op : Word) : (s.enterFault r op).faultPc = s.pc := rfl
@[simp] theorem State.enterFault_faultOp (s : State) (r : Raise) (op : Word) : (s.enterFault r op).faultOp = op := rfl
@[simp] theorem State.enterFault_faultInfo (s : State) (r : Raise) (op : Word) : (s.enterFault r op).faultInfo = r.info := rfl
@[simp] theorem State.enterFault_env (s : State) (r : Raise) (op : Word) : (s.enterFault r op).env = s.env := rfl
@[simp] theorem State.enterFault_getV (s : State) (r : Raise) (op : Word) (q : RegIx) : (s.enterFault r op).getV q = s.getV q := rfl
@[simp] theorem State.enterFault_cell (s : State) (r : Raise) (op : Word) (cx : Fin 64) (cy : Fin 32) : (s.enterFault r op).cell cx cy = s.cell cx cy := rfl
@[simp] theorem State.enterFault_lowestKey (s : State) (r : Raise) (op : Word) : (s.enterFault r op).lowestKey = s.lowestKey := rfl
@[simp] theorem State.enterFault_effAddr (s : State) (r : Raise) (op : Word) (k : Nat) : (s.enterFault r op).effAddr k = s.effAddr k := rfl
@[simp] theorem State.enterFault_keyDown (s : State) (r : Raise) (op : Word) (k : Nat) : (s.enterFault r op).keyDown k = s.keyDown k := rfl

/-! ### `awaitKey` -/

@[simp] theorem State.awaitKey_v (s : State) (x : RegIx) : (s.awaitKey x).v = s.v := rfl
@[simp] theorem State.awaitKey_i (s : State) (x : RegIx) : (s.awaitKey x).i = s.i := rfl
@[simp] theorem State.awaitKey_pc (s : State) (x : RegIx) : (s.awaitKey x).pc = s.pc := rfl
@[simp] theorem State.awaitKey_sp (s : State) (x : RegIx) : (s.awaitKey x).sp = s.sp := rfl
@[simp] theorem State.awaitKey_stack (s : State) (x : RegIx) : (s.awaitKey x).stack = s.stack := rfl
@[simp] theorem State.awaitKey_dt (s : State) (x : RegIx) : (s.awaitKey x).dt = s.dt := rfl
@[simp] theorem State.awaitKey_st (s : State) (x : RegIx) : (s.awaitKey x).st = s.st := rfl
@[simp] theorem State.awaitKey_keys (s : State) (x : RegIx) : (s.awaitKey x).keys = s.keys := rfl
@[simp] theorem State.awaitKey_fb (s : State) (x : RegIx) : (s.awaitKey x).fb = s.fb := rfl
@[simp] theorem State.awaitKey_mem (s : State) (x : RegIx) : (s.awaitKey x).mem = s.mem := rfl
@[simp] theorem State.awaitKey_mode (s : State) (x : RegIx) : (s.awaitKey x).mode = .awaitingKey := rfl
@[simp] theorem State.awaitKey_waitReg (s : State) (x : RegIx) : (s.awaitKey x).waitReg = x := rfl
@[simp] theorem State.awaitKey_cause (s : State) (x : RegIx) : (s.awaitKey x).cause = s.cause := rfl
@[simp] theorem State.awaitKey_faultPc (s : State) (x : RegIx) : (s.awaitKey x).faultPc = s.faultPc := rfl
@[simp] theorem State.awaitKey_faultOp (s : State) (x : RegIx) : (s.awaitKey x).faultOp = s.faultOp := rfl
@[simp] theorem State.awaitKey_faultInfo (s : State) (x : RegIx) : (s.awaitKey x).faultInfo = s.faultInfo := rfl
@[simp] theorem State.awaitKey_env (s : State) (x : RegIx) : (s.awaitKey x).env = s.env := rfl
@[simp] theorem State.awaitKey_getV (s : State) (x : RegIx) (r : RegIx) : (s.awaitKey x).getV r = s.getV r := rfl
@[simp] theorem State.awaitKey_cell (s : State) (x : RegIx) (cx : Fin 64) (cy : Fin 32) : (s.awaitKey x).cell cx cy = s.cell cx cy := rfl
@[simp] theorem State.awaitKey_lowestKey (s : State) (x : RegIx) : (s.awaitKey x).lowestKey = s.lowestKey := rfl
@[simp] theorem State.awaitKey_effAddr (s : State) (x : RegIx) (k : Nat) : (s.awaitKey x).effAddr k = s.effAddr k := rfl
@[simp] theorem State.awaitKey_keyDown (s : State) (x : RegIx) (k : Nat) : (s.awaitKey x).keyDown k = s.keyDown k := rfl

/-! ### `wake` -/

@[simp] theorem State.wake_v (s : State) (k : Nat) : (s.wake k).v = s.v.set s.waitReg.toNat (BitVec.ofNat 8 k) s.waitReg.isLt := rfl
@[simp] theorem State.wake_i (s : State) (k : Nat) : (s.wake k).i = s.i := rfl
@[simp] theorem State.wake_pc (s : State) (k : Nat) : (s.wake k).pc = s.pc + 2 := rfl
@[simp] theorem State.wake_sp (s : State) (k : Nat) : (s.wake k).sp = s.sp := rfl
@[simp] theorem State.wake_stack (s : State) (k : Nat) : (s.wake k).stack = s.stack := rfl
@[simp] theorem State.wake_dt (s : State) (k : Nat) : (s.wake k).dt = s.dt := rfl
@[simp] theorem State.wake_st (s : State) (k : Nat) : (s.wake k).st = s.st := rfl
@[simp] theorem State.wake_keys (s : State) (k : Nat) : (s.wake k).keys = s.keys := rfl
@[simp] theorem State.wake_fb (s : State) (k : Nat) : (s.wake k).fb = s.fb := rfl
@[simp] theorem State.wake_mem (s : State) (k : Nat) : (s.wake k).mem = s.mem := rfl
@[simp] theorem State.wake_mode (s : State) (k : Nat) : (s.wake k).mode = .running := rfl
@[simp] theorem State.wake_waitReg (s : State) (k : Nat) : (s.wake k).waitReg = s.waitReg := rfl
@[simp] theorem State.wake_cause (s : State) (k : Nat) : (s.wake k).cause = s.cause := rfl
@[simp] theorem State.wake_faultPc (s : State) (k : Nat) : (s.wake k).faultPc = s.faultPc := rfl
@[simp] theorem State.wake_faultOp (s : State) (k : Nat) : (s.wake k).faultOp = s.faultOp := rfl
@[simp] theorem State.wake_faultInfo (s : State) (k : Nat) : (s.wake k).faultInfo = s.faultInfo := rfl
@[simp] theorem State.wake_env (s : State) (k : Nat) : (s.wake k).env = s.env := rfl
@[simp] theorem State.wake_cell (s : State) (k : Nat) (cx : Fin 64) (cy : Fin 32) : (s.wake k).cell cx cy = s.cell cx cy := rfl
@[simp] theorem State.wake_lowestKey (s : State) (k : Nat) : (s.wake k).lowestKey = s.lowestKey := rfl
@[simp] theorem State.wake_effAddr (s : State) (k : Nat) (j : Nat) : (s.wake k).effAddr j = s.effAddr j := rfl
@[simp] theorem State.wake_keyDown (s : State) (k : Nat) (j : Nat) : (s.wake k).keyDown j = s.keyDown j := rfl

end Sys2Proof.Machine
end

