-- ==== Sys2Proof/Laws/Ops.lean ====
section
/-! SUPPORT. For each shared operation one lemma that says everything it can do; later proofs cite it and do not unfold the
operation. -/

namespace Sys2Proof.Machine

/-! ### The end of an instruction (R120, R224) -/

@[simp] theorem finish_ok (i : Instr) (s t : State) : finish i s (.ok t) = .next t := rfl

@[simp] theorem finish_error (i : Instr) (s : State) (r : Raise) :
    finish i s (.error r) = .next (s.enterFault r (encode i)) := rfl

/-- An instruction always ends in a next state: its effects', or the one fault entry gives. -/
theorem finish_cases (i : Instr) (s : State) (r : Except Raise State) :
    (∃ t, r = .ok t ∧ finish i s r = .next t) ∨ (∃ f, r = .error f ∧ finish i s r = .next (s.enterFault f (encode i))) := by
  cases r with
  | ok t => exact .inl ⟨t, rfl, rfl⟩
  | error f => exact .inr ⟨f, rfl, rfl⟩

/-! ### Checks (R67, R68, R174) -/

theorem readCheck_eq_none {a : Nat} : readCheck a = none ↔ a ≤ 4095 := by
  unfold readCheck; split <;> simp <;> omega

theorem writeCheck_eq_none {a : Nat} : writeCheck a = none ↔ 80 ≤ a ∧ a ≤ 4095 := by
  unfold writeCheck; split
  · simp; omega
  · split <;> simp <;> omega

/-- No address of the block fails. -/
theorem firstFailing_eq_none {check : Nat → Option Raise} {base n : Nat} :
    firstFailing check base n = none ↔ ∀ k, k < n → check (base + k) = none := by
  simp [firstFailing, List.findSome?_eq_none_iff]

/-- The lowest failing address decides (R174). -/
theorem firstFailing_eq_some {check : Nat → Option Raise} {base n : Nat} {r : Raise}
    (h : firstFailing check base n = some r) :
    ∃ k, k < n ∧ check (base + k) = some r ∧ ∀ j, j < k → check (base + j) = none := by
  induction n with
  | zero => simp [firstFailing] at h
  | succ n ih =>
    simp only [firstFailing, List.range_succ, List.findSome?_append, List.findSome?_cons, List.findSome?_nil] at h
    cases hp : firstFailing check base n with
    | some q =>
      have hq : q = r := by
        rw [show (List.range n).findSome? (fun k => check (base + k)) = some q from hp] at h
        simpa using h
      subst hq
      obtain ⟨k, hk, h1, h2⟩ := ih hp
      exact ⟨k, by omega, h1, h2⟩
    | none =>
      have hn := firstFailing_eq_none.mp hp
      refine ⟨n, by omega, ?_, hn⟩
      unfold firstFailing at hp
      rw [hp] at h
      cases hc : check (base + n) with
      | none => rw [hc] at h; simp at h
      | some q => rw [hc] at h; simpa using h

/-- `loadBytes`: the bytes when all addresses are in memory, else the fault of the lowest that is not (R67, R174). -/
theorem State.loadBytes_cases (s : State) (base n : Nat) :
    ((∀ k, k < n → base + k ≤ 4095) ∧ s.loadBytes base n = .ok ((List.range n).map fun k => s.mem.read (base + k))) ∨
    (∃ k, k < n ∧ 4095 < base + k ∧ (∀ j, j < k → base + j ≤ 4095) ∧
      s.loadBytes base n = .error (raise .memReadFault (base + k))) := by
  cases hf : firstFailing readCheck base n with
  | none =>
    refine .inl ⟨fun k hk => readCheck_eq_none.mp (firstFailing_eq_none.mp hf k hk), ?_⟩
    simp [State.loadBytes, hf]
  | some r =>
    obtain ⟨k, hk, h1, h2⟩ := firstFailing_eq_some hf
    have hr : 4095 < base + k ∧ r = raise .memReadFault (base + k) := by
      unfold readCheck at h1; split at h1
      · exact ⟨‹_›, (Option.some.inj h1).symm⟩
      · simp at h1
    refine .inr ⟨k, hk, hr.1, fun j hj => readCheck_eq_none.mp (h2 j hj), ?_⟩
    simp [State.loadBytes, hf, hr.2]

/-- `storeBytes`: the block written when every address is writable, else the fault of the lowest that is not and no write
(R68, R174). -/
theorem State.storeBytes_cases (s : State) (base : Nat) (bytes : List Byte) :
    ((∀ k, k < bytes.length → 80 ≤ base + k ∧ base + k ≤ 4095) ∧
      s.storeBytes base bytes = .ok (s.setMem (s.mem.writeAll base bytes))) ∨
    (∃ k, k < bytes.length ∧ (∀ j, j < k → 80 ≤ base + j ∧ base + j ≤ 4095) ∧
      ((4095 < base + k ∧ s.storeBytes base bytes = .error (raise .memWriteFault (base + k))) ∨
       (base + k < 80 ∧ s.storeBytes base bytes = .error (raise .fontWriteFault (base + k))))) := by
  cases hf : firstFailing writeCheck base bytes.length with
  | none =>
    refine .inl ⟨fun k hk => writeCheck_eq_none.mp (firstFailing_eq_none.mp hf k hk), ?_⟩
    simp [State.storeBytes, hf]
  | some r =>
    obtain ⟨k, hk, h1, h2⟩ := firstFailing_eq_some hf
    refine .inr ⟨k, hk, fun j hj => writeCheck_eq_none.mp (h2 j hj), ?_⟩
    unfold writeCheck at h1; split at h1
    · refine .inl ⟨‹_›, ?_⟩
      simp [State.storeBytes, hf, ← Option.some.inj h1]
    · split at h1
      · refine .inr ⟨‹_›, ?_⟩
        simp [State.storeBytes, hf, ← Option.some.inj h1]
      · simp at h1

/-! ### Fetch (R66) -/

/-- `Fetch`: a word at any address 0 to 4094, a fetch fault above. -/
theorem State.fetch_cases (s : State) :
    (s.pc.toNat ≤ 4094 ∧
      s.fetch = .ok (wordOfBytes (s.mem.read s.pc.toNat) (s.mem.read (s.pc.toNat + 1)))) ∨
    (4094 < s.pc.toNat ∧ s.fetch = .error (raise .fetchFault s.pc.toNat)) := by
  unfold State.fetch; split
  · exact .inr ⟨by omega, rfl⟩
  · exact .inl ⟨by omega, rfl⟩

/-! ### The stack (R121, R122) -/

/-- `Push`: an entry more, or a stack overflow at `SP = 16`. -/
theorem State.push_cases (s : State) (w : Word) :
    (∃ h : s.sp.val < 16, s.push w = .ok (s.setStack ⟨s.sp.val + 1, by omega⟩ (s.stack.set s.sp.val w h))) ∨
    (s.sp.val = 16 ∧ s.push w = .error (raise .stackOverflow 16)) := by
  unfold State.push
  split
  · exact .inl ⟨‹_›, rfl⟩
  · have h16 : s.sp.val = 16 := by have := s.sp.isLt; omega
    exact .inr ⟨h16, by rw [h16]⟩

/-- `Pop`: the last entry, kept in place, or a stack underflow at `SP = 0`. -/
theorem State.pop_cases (s : State) :
    (∃ h : 0 < s.sp.val, s.pop = .ok (s.stack[s.sp.val - 1]'(by omega), s.setStack ⟨s.sp.val - 1, by omega⟩ s.stack)) ∨
    (s.sp.val = 0 ∧ s.pop = .error (raise .stackUnderflow 0)) := by
  unfold State.pop
  split
  · exact .inr ⟨‹_›, by rw [‹s.sp.val = 0›]⟩
  · exact .inl ⟨by omega, rfl⟩

/-! ### Draws (R245) -/

/-- A draw changes the environment alone. -/
theorem State.drawRand_state (s : State) : s.drawRand.2 = s.setEnv s.drawRand.2.env := by
  unfold State.drawRand; split <;> rfl

@[simp] theorem State.drawRand_v (s : State) : s.drawRand.2.v = s.v := by
  rw [State.drawRand_state]; rfl
@[simp] theorem State.drawRand_i (s : State) : s.drawRand.2.i = s.i := by
  rw [State.drawRand_state]; rfl
@[simp] theorem State.drawRand_pc (s : State) : s.drawRand.2.pc = s.pc := by
  rw [State.drawRand_state]; rfl
@[simp] theorem State.drawRand_sp (s : State) : s.drawRand.2.sp = s.sp := by
  rw [State.drawRand_state]; rfl
@[simp] theorem State.drawRand_stack (s : State) : s.drawRand.2.stack = s.stack := by
  rw [State.drawRand_state]; rfl
@[simp] theorem State.drawRand_dt (s : State) : s.drawRand.2.dt = s.dt := by
  rw [State.drawRand_state]; rfl
@[simp] theorem State.drawRand_st (s : State) : s.drawRand.2.st = s.st := by
  rw [State.drawRand_state]; rfl
@[simp] theorem State.drawRand_keys (s : State) : s.drawRand.2.keys = s.keys := by
  rw [State.drawRand_state]; rfl
@[simp] theorem State.drawRand_fb (s : State) : s.drawRand.2.fb = s.fb := by
  rw [State.drawRand_state]; rfl
@[simp] theorem State.drawRand_mem (s : State) : s.drawRand.2.mem = s.mem := by
  rw [State.drawRand_state]; rfl
@[simp] theorem State.drawRand_mode (s : State) : s.drawRand.2.mode = s.mode := by
  rw [State.drawRand_state]; rfl
@[simp] theorem State.drawRand_waitReg (s : State) : s.drawRand.2.waitReg = s.waitReg := by
  rw [State.drawRand_state]; rfl
@[simp] theorem State.drawRand_cause (s : State) : s.drawRand.2.cause = s.cause := by
  rw [State.drawRand_state]; rfl
@[simp] theorem State.drawRand_faultPc (s : State) : s.drawRand.2.faultPc = s.faultPc := by
  rw [State.drawRand_state]; rfl
@[simp] theorem State.drawRand_faultOp (s : State) : s.drawRand.2.faultOp = s.faultOp := by
  rw [State.drawRand_state]; rfl
@[simp] theorem State.drawRand_faultInfo (s : State) : s.drawRand.2.faultInfo = s.faultInfo := by
  rw [State.drawRand_state]; rfl

/-- A queued byte is what is drawn. -/
theorem State.drawRand_queued (s : State) (b : Byte) (bs : List Byte) (h : s.env.draws = b :: bs) :
    s.drawRand = (b, s.setEnv { s.env with draws := bs }) := by
  simp [State.drawRand, h]

/-! ### Keys (R203) -/

/-- The lowest pressed key: pressed, 0 to 15, and no lower one is. -/
theorem State.lowestKey_eq_some {s : State} {k : Nat} (h : s.lowestKey = some k) :
    k < 16 ∧ s.keyDown k = true ∧ ∀ j, j < k → s.keyDown j = false := by
  obtain ⟨h1, i, hi, hk, hj⟩ := List.find?_eq_some_iff_getElem.mp h
  simp only [List.length_range, List.getElem_range] at hi hk hj
  subst hk
  exact ⟨hi, h1, fun j hjk => by simpa using hj j hjk⟩

/-- No key is pressed. -/
theorem State.lowestKey_eq_none {s : State} : s.lowestKey = none ↔ ∀ k, k < 16 → s.keyDown k = false := by
  simp [State.lowestKey, List.find?_eq_none]

/-- The waiting step: it wakes with the lowest pressed key, or changes nothing (R204). -/
theorem State.pollKey_cases (s : State) :
    (∃ k, s.lowestKey = some k ∧ s.pollKey = s.wake k) ∨ (s.lowestKey = none ∧ s.pollKey = s) := by
  unfold State.pollKey; split
  · exact .inl ⟨_, ‹_›, rfl⟩
  · exact .inr ⟨‹_›, rfl⟩

end Sys2Proof.Machine
end

