-- ==== Sys2Proof/Laws/PerInstr.lean ====
section
/-! SUPPORT. Statements made per instruction, one lemma per constructor. `OwnRow`: an instruction's word satisfies the mask
and match of its own row of the opcode map (spec/30_encoding.md R93, R94). -/

namespace Sys2Proof.Laws

/-- The word of an instruction is of its own row: the row of R94 with its number has `word & mask = match`. -/
def OwnRow.Statement (i : Instr) : Prop :=
  ∃ r ∈ opcodeTable, r.row = i.row ∧ encode i &&& r.mask = r.pattern

theorem OwnRow.ofNNN (op : BitVec 4) (a : Imm12) : packNNN op a &&& 0xF000 = packNNN op 0 := by
  rw [mask_nibble1, nibble1_packNNN]

theorem OwnRow.ofXNN (op x : BitVec 4) (k : Byte) : packXNN op x k &&& 0xF000 = packNNN op 0 := by
  rw [mask_nibble1, nibble1_packXNN]

theorem OwnRow.ofX (op x : BitVec 4) (k : Byte) : packXNN op x k &&& 0xF0FF = packXNN op 0 k := by
  rw [mask_nibble1_low, nibble1_packXNN, fieldNN_packXNN]

theorem OwnRow.ofXY (op x y n : BitVec 4) : packXYN op x y n &&& 0xF00F = packXYN op 0 0 n := by
  rw [mask_nibble1_n, nibble1_packXYN, fieldN_packXYN]

theorem OwnRow.ofXYN (op x y n : BitVec 4) : packXYN op x y n &&& 0xF000 = packNNN op 0 := by
  rw [mask_nibble1, nibble1_packXYN]

theorem OwnRow.nop : OwnRow.Statement .nop := ⟨⟨1, 0xFFFF, 0x0000⟩, by decide, rfl, by decide⟩
theorem OwnRow.cls : OwnRow.Statement .cls := ⟨⟨2, 0xFFFF, 0x00E0⟩, by decide, rfl, by decide⟩
theorem OwnRow.ret : OwnRow.Statement .ret := ⟨⟨3, 0xFFFF, 0x00EE⟩, by decide, rfl, by decide⟩
theorem OwnRow.jp (nnn : Imm12) : OwnRow.Statement (.jp nnn) :=
  ⟨⟨4, 0xF000, 0x1000⟩, by decide, rfl, (OwnRow.ofNNN _ _).trans (by decide)⟩
theorem OwnRow.call (nnn : Imm12) : OwnRow.Statement (.call nnn) :=
  ⟨⟨5, 0xF000, 0x2000⟩, by decide, rfl, (OwnRow.ofNNN _ _).trans (by decide)⟩
theorem OwnRow.seImm (x : RegIx) (nn : Byte) : OwnRow.Statement (.seImm x nn) :=
  ⟨⟨6, 0xF000, 0x3000⟩, by decide, rfl, (OwnRow.ofXNN _ _ _).trans (by decide)⟩
theorem OwnRow.sneImm (x : RegIx) (nn : Byte) : OwnRow.Statement (.sneImm x nn) :=
  ⟨⟨7, 0xF000, 0x4000⟩, by decide, rfl, (OwnRow.ofXNN _ _ _).trans (by decide)⟩
theorem OwnRow.seReg (x : RegIx) (y : RegIx) : OwnRow.Statement (.seReg x y) :=
  ⟨⟨8, 0xF00F, 0x5000⟩, by decide, rfl, (OwnRow.ofXY _ _ _ _).trans (by decide)⟩
theorem OwnRow.ldImm (x : RegIx) (nn : Byte) : OwnRow.Statement (.ldImm x nn) :=
  ⟨⟨9, 0xF000, 0x6000⟩, by decide, rfl, (OwnRow.ofXNN _ _ _).trans (by decide)⟩
theorem OwnRow.addImm (x : RegIx) (nn : Byte) : OwnRow.Statement (.addImm x nn) :=
  ⟨⟨10, 0xF000, 0x7000⟩, by decide, rfl, (OwnRow.ofXNN _ _ _).trans (by decide)⟩
theorem OwnRow.ldReg (x : RegIx) (y : RegIx) : OwnRow.Statement (.ldReg x y) :=
  ⟨⟨11, 0xF00F, 0x8000⟩, by decide, rfl, (OwnRow.ofXY _ _ _ _).trans (by decide)⟩
theorem OwnRow.or (x : RegIx) (y : RegIx) : OwnRow.Statement (.or x y) :=
  ⟨⟨12, 0xF00F, 0x8001⟩, by decide, rfl, (OwnRow.ofXY _ _ _ _).trans (by decide)⟩
theorem OwnRow.and (x : RegIx) (y : RegIx) : OwnRow.Statement (.and x y) :=
  ⟨⟨13, 0xF00F, 0x8002⟩, by decide, rfl, (OwnRow.ofXY _ _ _ _).trans (by decide)⟩
theorem OwnRow.xor (x : RegIx) (y : RegIx) : OwnRow.Statement (.xor x y) :=
  ⟨⟨14, 0xF00F, 0x8003⟩, by decide, rfl, (OwnRow.ofXY _ _ _ _).trans (by decide)⟩
theorem OwnRow.addReg (x : RegIx) (y : RegIx) : OwnRow.Statement (.addReg x y) :=
  ⟨⟨15, 0xF00F, 0x8004⟩, by decide, rfl, (OwnRow.ofXY _ _ _ _).trans (by decide)⟩
theorem OwnRow.sub (x : RegIx) (y : RegIx) : OwnRow.Statement (.sub x y) :=
  ⟨⟨16, 0xF00F, 0x8005⟩, by decide, rfl, (OwnRow.ofXY _ _ _ _).trans (by decide)⟩
theorem OwnRow.shr (x : RegIx) (y : RegIx) : OwnRow.Statement (.shr x y) :=
  ⟨⟨17, 0xF00F, 0x8006⟩, by decide, rfl, (OwnRow.ofXY _ _ _ _).trans (by decide)⟩
theorem OwnRow.subn (x : RegIx) (y : RegIx) : OwnRow.Statement (.subn x y) :=
  ⟨⟨18, 0xF00F, 0x8007⟩, by decide, rfl, (OwnRow.ofXY _ _ _ _).trans (by decide)⟩
theorem OwnRow.shl (x : RegIx) (y : RegIx) : OwnRow.Statement (.shl x y) :=
  ⟨⟨19, 0xF00F, 0x800E⟩, by decide, rfl, (OwnRow.ofXY _ _ _ _).trans (by decide)⟩
theorem OwnRow.sneReg (x : RegIx) (y : RegIx) : OwnRow.Statement (.sneReg x y) :=
  ⟨⟨20, 0xF00F, 0x9000⟩, by decide, rfl, (OwnRow.ofXY _ _ _ _).trans (by decide)⟩
theorem OwnRow.ldI (nnn : Imm12) : OwnRow.Statement (.ldI nnn) :=
  ⟨⟨21, 0xF000, 0xA000⟩, by decide, rfl, (OwnRow.ofNNN _ _).trans (by decide)⟩
theorem OwnRow.jpV0 (nnn : Imm12) : OwnRow.Statement (.jpV0 nnn) :=
  ⟨⟨22, 0xF000, 0xB000⟩, by decide, rfl, (OwnRow.ofNNN _ _).trans (by decide)⟩
theorem OwnRow.rnd (x : RegIx) (nn : Byte) : OwnRow.Statement (.rnd x nn) :=
  ⟨⟨23, 0xF000, 0xC000⟩, by decide, rfl, (OwnRow.ofXNN _ _ _).trans (by decide)⟩
theorem OwnRow.drw (x : RegIx) (y : RegIx) (n : BitVec 4) : OwnRow.Statement (.drw x y n) :=
  ⟨⟨24, 0xF000, 0xD000⟩, by decide, rfl, (OwnRow.ofXYN _ _ _ _).trans (by decide)⟩
theorem OwnRow.skp (x : RegIx) : OwnRow.Statement (.skp x) :=
  ⟨⟨25, 0xF0FF, 0xE09E⟩, by decide, rfl, (OwnRow.ofX _ _ _).trans (by decide)⟩
theorem OwnRow.sknp (x : RegIx) : OwnRow.Statement (.sknp x) :=
  ⟨⟨26, 0xF0FF, 0xE0A1⟩, by decide, rfl, (OwnRow.ofX _ _ _).trans (by decide)⟩
theorem OwnRow.ldVxDt (x : RegIx) : OwnRow.Statement (.ldVxDt x) :=
  ⟨⟨27, 0xF0FF, 0xF007⟩, by decide, rfl, (OwnRow.ofX _ _ _).trans (by decide)⟩
theorem OwnRow.ldVxK (x : RegIx) : OwnRow.Statement (.ldVxK x) :=
  ⟨⟨28, 0xF0FF, 0xF00A⟩, by decide, rfl, (OwnRow.ofX _ _ _).trans (by decide)⟩
theorem OwnRow.ldDtVx (x : RegIx) : OwnRow.Statement (.ldDtVx x) :=
  ⟨⟨29, 0xF0FF, 0xF015⟩, by decide, rfl, (OwnRow.ofX _ _ _).trans (by decide)⟩
theorem OwnRow.ldStVx (x : RegIx) : OwnRow.Statement (.ldStVx x) :=
  ⟨⟨30, 0xF0FF, 0xF018⟩, by decide, rfl, (OwnRow.ofX _ _ _).trans (by decide)⟩
theorem OwnRow.addI (x : RegIx) : OwnRow.Statement (.addI x) :=
  ⟨⟨31, 0xF0FF, 0xF01E⟩, by decide, rfl, (OwnRow.ofX _ _ _).trans (by decide)⟩
theorem OwnRow.ldF (x : RegIx) : OwnRow.Statement (.ldF x) :=
  ⟨⟨32, 0xF0FF, 0xF029⟩, by decide, rfl, (OwnRow.ofX _ _ _).trans (by decide)⟩
theorem OwnRow.ldB (x : RegIx) : OwnRow.Statement (.ldB x) :=
  ⟨⟨33, 0xF0FF, 0xF033⟩, by decide, rfl, (OwnRow.ofX _ _ _).trans (by decide)⟩
theorem OwnRow.ldMemVx (x : RegIx) : OwnRow.Statement (.ldMemVx x) :=
  ⟨⟨34, 0xF0FF, 0xF055⟩, by decide, rfl, (OwnRow.ofX _ _ _).trans (by decide)⟩
theorem OwnRow.ldVxMem (x : RegIx) : OwnRow.Statement (.ldVxMem x) :=
  ⟨⟨35, 0xF0FF, 0xF065⟩, by decide, rfl, (OwnRow.ofX _ _ _).trans (by decide)⟩

end Sys2Proof.Laws
end

