-- ==== Sys2Proof/Laws/Step.lean ====
section
/-! SUPPORT. What the step and the host's operations can do, said once. -/

namespace Sys2Proof.Machine

/-- `timer_tick` changes `DT`, `ST` and the environment alone (R239). -/
theorem State.timerTick_eq (s : State) :
    s.timerTick = { s with dt := countDown s.dt, st := countDown s.st, env := s.timerTick.env } := by
  unfold State.timerTick; split
  · rename_i h; simp [State.emit, State.setDt, State.setSt, State.setEnv, countDown, h]
  · rfl

/-- `set_key` changes the key latch alone (R241). -/
theorem State.setKey_eq (s : State) (k : Nat) (p : Bool) : s.setKey k p = s.setKeys (s.setKey k p).keys := by
  unfold State.setKey; split
  · rfl
  · split <;> rfl

/-- `load` changes memory and the environment alone (R238). -/
theorem State.load_eq (s : State) (bytes : List Byte) :
    s.load bytes = { s with mem := (s.load bytes).mem, env := (s.load bytes).env } := by
  unfold State.load; split <;> rfl

/-- An instruction cycle: a fetch fault, an illegal word, or the decoded instruction (R120, R223). -/
theorem State.runInstruction_cases (s : State) :
    (∃ r, s.fetch = .error r ∧ s.runInstruction = .next (s.enterFault r 0)) ∨
    (∃ w, s.fetch = .ok w ∧ decodeWord w = none ∧
      s.runInstruction = .next (s.enterFault (raise .invalidOpcode w.toNat) w)) ∨
    (∃ w i, s.fetch = .ok w ∧ decodeWord w = some i ∧ s.runInstruction = exec i s) := by
  unfold State.runInstruction
  cases hf : s.fetch with
  | error r => exact .inl ⟨r, rfl, rfl⟩
  | ok w =>
    cases hd : decodeWord w with
    | none => exact .inr (.inl ⟨w, rfl, hd, by simp [hd]⟩)
    | some i => exact .inr (.inr ⟨w, i, rfl, hd, by simp [hd]⟩)

/-- A step with nothing queued is an instruction step. -/
theorem step_unscheduled {s : State} (h : s.env.schedule = []) : step s = s.instructionStep := by
  simp [step, State.nextOperation, h]

/-- A step with an operation queued is that operation. -/
theorem step_scheduled {s : State} {op : HostOp} {ops : List HostOp} (h : s.env.schedule = op :: ops) :
    step s = (s.withSchedule ops).operate op := by
  simp [step, State.nextOperation, h]

/-- A queued `step` is the instruction step of the state without it. -/
theorem step_queued_step {s : State} {ops : List HostOp} (h : s.env.schedule = .step :: ops) :
    step s = (s.withSchedule ops).instructionStep :=
  step_scheduled h

end Sys2Proof.Machine
end

