-- ==== Sys2Proof/Tests/Slice0.lean ====
section
/-! SUPPORT. Tests and witnesses. Expected results come from spec/95_test_vectors.md (section in each comment), from the
examples of the rules, or from the encoding table of R94; none from a run of this model. The witnesses show states and
operands that meet the hypotheses of the statements, at the boundaries of their ranges. -/

namespace Sys2Proof.Tests

open Sys2Proof.Machine Sys2Proof.Claims

/-! ### Helpers -/

/-- The state after one step, if it answers one. -/
def next (s : State) : Option State := match step s with | .next t => some t | _ => none

/-- One step of the word `w` placed at `PC` of `s`. -/
def run (w : Nat) (s : State) : Option State := next (s.withFetchWord 16 w)

/-- The reset state with `PC` at `a`. -/
def at_ (a : Nat) : State := State.reset.setPc (BitVec.ofNat 16 a)

/-- The reset state with some registers set. -/
def regs (l : List (RegIx × Byte)) : State := l.foldl (fun s p => s.setV p.1 p.2) State.reset

/-- The reset state with `I` set and bytes at it. -/
def mems (i : Nat) (bs : List Byte) (l : List (RegIx × Byte)) : State :=
  ((regs l).setI (BitVec.ofNat 16 i)).setMem ((regs l).mem.writeAll i bs)

/-- A state with cells lit. -/
def lit (l : List (Fin 64 × Fin 32)) (s : State) : State :=
  s.setFb (l.foldl (fun f p => f.set p.2.val (f[p.2] ||| BitVec.twoPow 64 p.1.val) p.2.isLt) s.fb)

/-- The lit cells of one row. -/
def rowOf (s : State) (cy : Fin 32) : BitVec 64 := s.fb[cy]

/-- One host operation and then nothing queued. -/
def host (op : HostOp) (s : State) : State := s.withSchedule [op]

/-! ### Decoding: words written bit by bit from R91 and R94 -/

theorem test_decode_fixed :
    decodeWord 0b0000000000000000 = some .nop ∧ decodeWord 0b0000000011100000 = some .cls ∧
    decodeWord 0b0000000011101110 = some .ret := by decide

theorem test_decode_flow :
    decodeWord 0b0001101010111100 = some (.jp 0xABC) ∧ decodeWord 0b0010101010111100 = some (.call 0xABC) ∧
    decodeWord 0b0011000110000000 = some (.seImm 1 0x80) ∧ decodeWord 0b0100001000000111 = some (.sneImm 2 7) ∧
    decodeWord 0b0101001101000000 = some (.seReg 3 4) ∧ decodeWord 0b1001001101000000 = some (.sneReg 3 4) ∧
    decodeWord 0b1011001100000001 = some (.jpV0 0x301) := by decide

theorem test_decode_alu :
    decodeWord 0b0110000000000101 = some (.ldImm 0 5) ∧ decodeWord 0b0111000111111111 = some (.addImm 1 0xFF) ∧
    decodeWord 0b1000000100100000 = some (.ldReg 1 2) ∧ decodeWord 0b1000101010110001 = some (.or 0xA 0xB) ∧
    decodeWord 0b1000101010110010 = some (.and 0xA 0xB) ∧ decodeWord 0b1000101010110011 = some (.xor 0xA 0xB) := by decide

theorem test_decode_flag_alu :
    decodeWord 0b1000101010110100 = some (.addReg 0xA 0xB) ∧ decodeWord 0b1000101010110101 = some (.sub 0xA 0xB) ∧
    decodeWord 0b1000101010110110 = some (.shr 0xA 0xB) ∧ decodeWord 0b1000101010110111 = some (.subn 0xA 0xB) ∧
    decodeWord 0b1000101010111110 = some (.shl 0xA 0xB) ∧ decodeWord 0b1100000100001111 = some (.rnd 1 0x0F) := by decide

theorem test_decode_index_memory_display :
    decodeWord 0b1010001100000001 = some (.ldI 0x301) ∧ decodeWord 0b1111001000011110 = some (.addI 2) ∧
    decodeWord 0b1111001000101001 = some (.ldF 2) ∧ decodeWord 0b1111010100110011 = some (.ldB 5) ∧
    decodeWord 0b1111001001010101 = some (.ldMemVx 2) ∧ decodeWord 0b1111001001100101 = some (.ldVxMem 2) ∧
    decodeWord 0b1101000100100101 = some (.drw 1 2 5) := by decide

theorem test_decode_keypad_timers :
    decodeWord 0b1110101010011110 = some (.skp 0xA) ∧ decodeWord 0b1110101010100001 = some (.sknp 0xA) ∧
    decodeWord 0b1111001100000111 = some (.ldVxDt 3) ∧ decodeWord 0b1111000100001010 = some (.ldVxK 1) ∧
    decodeWord 0b1111000100010101 = some (.ldDtVx 1) ∧ decodeWord 0b1111001000011000 = some (.ldStVx 2) := by decide

/-- Section 2.1: illegal words. -/
theorem test_decode_illegal :
    [0x0001, 0x00E1, 0x00FE, 0x0123, 0x0FFF, 0x5121, 0x512F, 0x8AB8, 0x8AB9, 0x8ABA, 0x8ABB, 0x8ABC, 0x8ABD,
     0x8ABF, 0x9121].all (fun w => (decodeWord w).isNone) = true ∧
    [0xE09F, 0xE0A0, 0xE000, 0xE19D, 0xF000, 0xF00B, 0xF01F, 0xF030, 0xF075, 0xF085, 0xF0FF].all
      (fun w => (decodeWord w).isNone) = true := by decide

/-- R90: two bytes are consumed, the rest comes back; R101 gives the bytes. -/
theorem test_decode_bytes :
    decodeBytes [0x60, 0x05, 0x12] = .ok (.ldImm 0 5, [0x12]) ∧ decodeBytes [0x60] = .error .truncated ∧
    decodeBytes [0x51, 0x21] = .error (.invalidOpcode 0x5121) := by decide

/-- R101: worked encodings. -/
theorem test_encode_worked :
    encode (.ldImm 0 5) = 0x6005 ∧ encode (.jp 0x202) = 0x1202 ∧ encode (.addReg 0 1) = 0x8014 ∧
    encode (.drw 1 2 5) = 0xD125 ∧ encode (.ldMemVx 0xF) = 0xFF55 ∧ encode (.shr 3 7) = 0x8376 ∧
    encodeBytes (.ldB 0) = [0xF0, 0x33] := by decide

/-! ### Well-formedness: each check refuses an ill-formed term (R99, R100, R238) -/

theorem test_wf_register_out_of_range : assemble ⟨.LD, [.v 16, .num 5]⟩ = none := by decide
theorem test_wf_second_register_out_of_range : assemble ⟨.OR, [.v 1, .v 16]⟩ = none := by decide
theorem test_wf_byte_out_of_range : assemble ⟨.LD, [.v 1, .num 256]⟩ = none := by decide
theorem test_wf_address_out_of_range : assemble ⟨.JP, [.num 4096]⟩ = none := by decide
theorem test_wf_rows_out_of_range : assemble ⟨.DRW, [.v 1, .v 2, .num 16]⟩ = none := by decide
theorem test_wf_wrong_shape :
    assemble ⟨.CLS, [.v 0]⟩ = none ∧ assemble ⟨.ADD, [.v 1, .i]⟩ = none ∧ assemble ⟨.JP, [.v 1, .num 0]⟩ = none := by decide
theorem test_wf_directives :
    (AsmItem.dw 65536).wellFormed = false ∧ (AsmItem.db 256).wellFormed = false ∧
    (AsmItem.dw 0xFFFF).bytes = some [0xFF, 0xFF] ∧ (AsmItem.db 256).bytes = none := by decide
theorem test_wf_line_that_does_not_assemble : programWellFormed [.line ⟨.LD, [.v 16, .num 5]⟩] = false := by decide
theorem test_wf_program_too_long :
    programWellFormed (List.replicate 1793 (.dw 0)) = false ∧ programWellFormed (List.replicate 1792 (.dw 0)) = true := by
  decide +kernel

/-- The selections R99 lists, and the round trip of `SHR Vx, Vy`. -/
theorem test_assemble_overloads :
    assemble ⟨.SE, [.v 1, .num 5]⟩ = some (.seImm 1 5) ∧ assemble ⟨.SE, [.v 1, .v 2]⟩ = some (.seReg 1 2) ∧
    assemble ⟨.JP, [.num 0x200]⟩ = some (.jp 0x200) ∧ assemble ⟨.JP, [.v 0, .num 0x200]⟩ = some (.jpV0 0x200) ∧
    assemble ⟨.LD, [.i, .num 0x300]⟩ = some (.ldI 0x300) ∧ assemble ⟨.ADD, [.i, .v 1]⟩ = some (.addI 1) ∧
    assemble ⟨.SHR, [.v 3]⟩ = some (.shr 3 0) ∧ disassemble (.shr 3 7) = ⟨.SHR, [.v 3, .v 7]⟩ := by decide

/-! ### Reset (S1, R36, R64) -/

theorem test_reset_values :
    State.reset.pc = 0x200 ∧ State.reset.sp = 0 ∧ State.reset.i = 0 ∧ State.reset.dt = 0 ∧ State.reset.st = 0 ∧
    State.reset.keys = 0 ∧ State.reset.v = Vector.replicate 16 0 ∧ State.reset.fb = Vector.replicate 32 0 ∧
    State.reset.mem = [] := by decide

theorem test_reset_dimensions :
    State.reset.v.toList.length = 16 ∧ State.reset.stack.toList.length = Config.stackDepth ∧
    State.reset.fb.toList.length = Config.fbHeight ∧ Config.fbWidth = 64 ∧
    Config.progBase + Config.maxProgLen = Config.memSize := by decide

/-- R64: the first and last bytes of some glyphs. -/
theorem test_font_bytes :
    [0, 5, 0x0A, 0x23, 0x37, 0x4B, 79, 80].map State.reset.mem.read = [0xF0, 0x20, 0xF0, 0xF0, 0xE0, 0xF0, 0x80, 0] := by
  decide

theorem test_codes :
    [Cause.none, .invalidOpcode, .fetchFault, .stackOverflow, .stackUnderflow, .memReadFault, .memWriteFault,
     .keyIndexFault, .fontWriteFault].map Cause.code = [0, 1, 2, 3, 4, 5, 6, 7, 8] ∧
    [Mode.running, .awaitingKey, .faulted].map Mode.code = [0, 1, 2] := by decide

/-! ### Fetch (section 2.2) -/

theorem test_fetch_odd_pc : (run 0x6107 (at_ 0x201)).map (fun t => (t.getV 1, t.pc)) = some (7, 0x203) := by decide

/-- The font's first word `F090` is illegal. -/
theorem test_fetch_font_region :
    (next (at_ 0)).map (fun t => (t.cause, t.faultPc, t.faultOp)) = some (.invalidOpcode, 0, 0xF090) := by decide

theorem test_fetch_last_word : (run 0x0000 (at_ 0xFFE)).map (·.pc) = some 0x1000 := by decide

theorem test_fetch_fault :
    (next (at_ 0xFFF)).map (fun t => (t.cause.code, t.faultPc, t.faultOp, t.faultInfo, t.pc))
      = some (2, 0xFFF, 0, 4095, 0xFFF) ∧
    (next (at_ 0x10FE)).map (fun t => (t.cause, t.faultInfo)) = some (.fetchFault, 4350) := by decide

/-- Section 2.1: the illegal word vector. -/
theorem test_invalid_opcode :
    (run 0x5121 ((at_ 0x202).setV 1 7)).map (fun t => (t.status, t.pc, t.getV 1))
      = some (⟨.faulted, .invalidOpcode, 0x202, 0x5121, 0x5121⟩, 0x202, 7) := by decide

/-! ### Control flow (section 2.3) -/

theorem test_nop : (run 0x0000 (at_ 0x240)).map (·.pc) = some 0x242 := by decide
theorem test_jp : (run 0x1ABC (at_ 0x240)).map (·.pc) = some 0xABC := by decide
theorem test_jp_odd : (run 0x1241 (at_ 0x240)).map (·.pc) = some 0x241 := by decide
theorem test_call : (run 0x2ABC (at_ 0x240)).map (fun t => (t.pc, t.sp, t.stack[0])) = some (0xABC, 1, 0x242) := by decide
theorem test_call_full :
    (run 0x2ABC ((at_ 0x240).setStack 16 State.reset.stack)).map (fun t => (t.cause.code, t.faultInfo, t.pc, t.sp))
      = some (3, 16, 0x240, 16) := by decide
theorem test_ret :
    (run 0x00EE ((at_ 0x240).setStack 1 (State.reset.stack.set 0 0x206))).map (fun t => (t.pc, t.sp, t.stack[0]))
      = some (0x206, 0, 0x206) := by decide
theorem test_ret_empty :
    (run 0x00EE (at_ 0x240)).map (fun t => (t.cause.code, t.faultInfo, t.pc)) = some (4, 0, 0x240) := by decide
theorem test_se_imm :
    (run 0x3100 (at_ 0x240)).map (·.pc) = some 0x244 ∧ (run 0x3100 ((at_ 0x240).setV 1 4)).map (·.pc) = some 0x242 := by decide
theorem test_sne_imm :
    (run 0x4207 ((at_ 0x240).setV 2 7)).map (·.pc) = some 0x242 ∧
    (run 0x4207 ((at_ 0x240).setV 2 8)).map (·.pc) = some 0x244 := by decide
theorem test_se_reg :
    (run 0x5340 (((at_ 0x240).setV 3 0x2A).setV 4 0x2A)).map (·.pc) = some 0x244 ∧
    (run 0x5340 (((at_ 0x240).setV 3 1).setV 4 2)).map (·.pc) = some 0x242 := by decide
theorem test_sne_reg :
    (run 0x9340 (((at_ 0x240).setV 3 1).setV 4 2)).map (·.pc) = some 0x244 ∧
    (run 0x9330 ((at_ 0x240).setV 3 9)).map (·.pc) = some 0x242 := by decide
theorem test_jpV0_no_mask : (run 0xBFFF (regs [(0, 0xFF)])).map (·.pc) = some 0x10FE := by decide
theorem test_jpV0_always_register_zero : (run 0xB300 (regs [(0, 1), (3, 0x7F)])).map (·.pc) = some 0x301 := by decide

/-! ### Arithmetic (section 2.4) -/

theorem test_ld_imm : (run 0x6AFF State.reset).map (fun t => (t.getV 0xA, t.pc)) = some (0xFF, 0x202) := by decide
theorem test_add_imm_no_flag :
    (run 0x7180 (regs [(1, 0x80), (15, 7)])).map (fun t => (t.getV 1, t.getV 15)) = some (0, 7) := by decide
theorem test_ld_reg : (run 0x8120 (regs [(2, 0x7B)])).map (fun t => (t.getV 1, t.getV 2)) = some (0x7B, 0x7B) := by decide
theorem test_or :
    (run 0x8011 (regs [(0, 0xF0), (1, 0x0F), (15, 9)])).map (fun t => (t.getV 0, t.getV 1, t.getV 15))
      = some (0xFF, 0x0F, 9) := by decide
theorem test_and :
    (run 0x8012 (regs [(0, 0xF0), (1, 0x3C), (15, 9)])).map (fun t => (t.getV 0, t.getV 15)) = some (0x30, 9) := by decide
theorem test_xor :
    (run 0x8013 (regs [(0, 0xF0), (1, 0x3C), (15, 9)])).map (fun t => (t.getV 0, t.getV 15)) = some (0xCC, 9) := by decide

/-- S3, and the sum 255 that clears the flag. -/
theorem test_add :
    (run 0x8014 (regs [(0, 0xFF), (1, 1)])).map (fun t => (t.getV 0, t.getV 1, t.getV 15)) = some (0, 1, 1) ∧
    (run 0x8014 (regs [(0, 0xFE), (1, 1), (15, 1)])).map (fun t => (t.getV 0, t.getV 15)) = some (0xFF, 0) := by decide
theorem test_add_flag_operands :
    (run 0x8F14 (regs [(15, 0xFF), (1, 2)])).map (·.getV 15) = some 1 ∧
    (run 0x80F4 (regs [(0, 0xFF), (15, 1)])).map (fun t => (t.getV 0, t.getV 15)) = some (0, 1) := by decide

/-- S4, and equal operands. -/
theorem test_sub :
    (run 0x8015 (regs [(0, 1), (1, 2)])).map (fun t => (t.getV 0, t.getV 1, t.getV 15)) = some (0xFF, 2, 0) ∧
    (run 0x8015 (regs [(0, 5), (1, 5)])).map (fun t => (t.getV 0, t.getV 15)) = some (0, 1) := by decide
theorem test_sub_flag_operands :
    (run 0x8F15 (regs [(15, 6), (1, 5)])).map (·.getV 15) = some 1 ∧
    (run 0x80F5 (regs [(0, 5), (15, 1)])).map (fun t => (t.getV 0, t.getV 15)) = some (4, 1) := by decide
theorem test_subn :
    (run 0x8017 (regs [(0, 1), (1, 2)])).map (fun t => (t.getV 0, t.getV 1, t.getV 15)) = some (1, 2, 1) ∧
    (run 0x8017 (regs [(0, 3), (1, 2)])).map (fun t => (t.getV 0, t.getV 15)) = some (0xFF, 0) := by decide
theorem test_shr :
    (run 0x8376 (regs [(3, 5), (7, 0xAA)])).map (fun t => (t.getV 3, t.getV 7, t.getV 15)) = some (2, 0xAA, 1) ∧
    (run 0x8306 (regs [(3, 0xFF)])).map (fun t => (t.getV 3, t.getV 15)) = some (0x7F, 1) := by decide
theorem test_shr_flag_register :
    (run 0x8F06 (regs [(15, 3)])).map (·.getV 15) = some 0 ∧ (run 0x8F06 (regs [(15, 0xFE)])).map (·.getV 15) = some 0 := by decide
theorem test_shl :
    (run 0x83AE (regs [(3, 0x81), (0xA, 0x55)])).map (fun t => (t.getV 3, t.getV 0xA, t.getV 15)) = some (2, 0x55, 1) ∧
    (run 0x830E (regs [(3, 0x40), (15, 1)])).map (fun t => (t.getV 3, t.getV 15)) = some (0x80, 0) := by decide
theorem test_shl_flag_register :
    (run 0x8F0E (regs [(15, 0x80)])).map (·.getV 15) = some 2 ∧ (run 0x8F0E (regs [(15, 0x7F)])).map (·.getV 15) = some 0 := by decide

/-- The draw `A7` is an input of the vector. -/
theorem test_rnd :
    (run 0xC10F (State.reset.setEnv { Env.initial with draws := [0xA7, 0x5C] })).map (fun t => (t.getV 1, t.env.draws))
      = some (7, [0x5C]) ∧
    (run 0xCFF0 (State.reset.setEnv { Env.initial with draws := [0x5C] })).map (·.getV 15) = some 0x50 := by decide

/-! ### Index register and memory (section 2.5) -/

theorem test_ld_i : (run 0xAFFF State.reset).map (fun t => (t.i, t.pc)) = some (0xFFF, 0x202) := by decide
theorem test_add_i :
    (run 0xF21E ((regs [(2, 1), (15, 5)]).setI 0xFFF)).map (fun t => (t.i, t.getV 15)) = some (0x1000, 5) ∧
    (run 0xF21E ((regs [(2, 0xFF)]).setI 0xFFFF)).map (·.i) = some 0xFE := by decide
theorem test_ld_f :
    (run 0xF029 (regs [(0, 0x0F)])).map (·.i) = some 0x4B ∧ (run 0xF029 (regs [(0, 0xFF)])).map (·.i) = some 0x4FB := by decide

/-- S5, at the last address that fits. -/
theorem test_ld_b :
    (run 0xF033 (mems 0xFFD [] [(0, 0xEA)])).map (fun t => ([0xFFC, 0xFFD, 0xFFE, 0xFFF].map t.mem.read, t.i))
      = some ([0, 2, 3, 4], 0xFFD) := by decide
theorem test_ld_b_faults :
    (run 0xF033 (mems 78 [] [])).map (fun t => (t.cause.code, t.faultInfo, t.mem.read 80)) = some (8, 78, 0) ∧
    (run 0xF033 (mems 0xFFE [] [(0, 0xEA)])).map (fun t => (t.cause.code, t.faultInfo, t.mem.read 0xFFE))
      = some (6, 4096, 0) := by decide
theorem test_ld_mem_vx :
    (run 0xF255 (mems 0x400 [] [(0, 1), (1, 2), (2, 3), (3, 9)])).map
      (fun t => ([0x400, 0x401, 0x402, 0x403].map t.mem.read, t.i)) = some ([1, 2, 3, 0], 0x400) := by decide
theorem test_ld_mem_vx_faults :
    (run 0xF155 (mems 0xFFF [] [(0, 0xAB), (1, 2)])).map (fun t => (t.cause.code, t.faultInfo, t.mem.read 0xFFF))
      = some (6, 4096, 0) ∧
    (run 0xF055 (mems 0xFFFF [] [])).map (fun t => (t.cause, t.faultInfo)) = some (.memWriteFault, 65535) := by decide
theorem test_ld_vx_mem :
    (run 0xF465 State.reset).map (fun t => [0, 1, 2, 3, 4, 5].map t.getV) = some [0xF0, 0x90, 0x90, 0x90, 0xF0, 0] ∧
    (run 0xF065 (mems 0xFFF [0x77] [])).map (·.getV 0) = some 0x77 := by decide
theorem test_ld_vx_mem_fault :
    (run 0xF165 (mems 0xFFF [0x77] [(0, 5)])).map (fun t => (t.cause.code, t.faultInfo, t.getV 0)) = some (5, 4096, 5) := by
  decide +kernel

/-! ### Display (section 2.6) -/

theorem test_cls :
    (run 0x00E0 (lit [(0, 0), (63, 31)] (regs [(15, 1)]))).map (fun t => (t.fb, t.getV 15))
      = some (Vector.replicate 32 0, 1) := by decide

/-- V-D1: both coordinates wrap. -/
theorem test_drw_wraps :
    (run 0xD121 (mems 0x300 [0xC0] [(1, 63), (2, 31)])).map
      (fun t => (t.cell 63 31, t.cell 0 31, fbBit t.fb 2047, fbBit t.fb 1984, t.cell 1 31, t.getV 15))
      = some (true, true, true, true, false, 0) := by decide +kernel

/-- V-D6: a collision, and cells under 0 bits left alone. -/
theorem test_drw_collision :
    (run 0xD012 (lit [(4, 4), (20, 20)] (mems 0x300 [0xF0, 0x0F] [(0, 4), (1, 4)]))).map
      (fun t => (rowOf t 4, rowOf t 5, rowOf t 20, t.getV 15)) = some (0xE0, 0xF00, 0x100000, 1) := by decide +kernel

/-- V-D9: the origin is the old `V[15]`. -/
theorem test_drw_flag_register :
    (run 0xDF01 (lit [(10, 2)] (mems 0x300 [0x80] [(15, 10), (0, 2)]))).map (fun t => (t.fb, t.getV 15))
      = some (Vector.replicate 32 0, 1) := by decide +kernel

/-- V-D7 and V-D12. -/
theorem test_drw_rows :
    (run 0xD010 (lit [(4, 4)] (mems 0xFFFF [] [(15, 1)]))).map (fun t => (t.cell 4 4, t.getV 15, t.mode))
      = some (true, 0, .running) ∧
    (run 0xD002 ((regs []).setI 0xFFF)).map (fun t => (t.cause.code, t.faultInfo, t.pc)) = some (5, 4096, 0x200) := by decide

/-! ### Keypad and timers (section 2.7) -/

theorem test_skp :
    (run 0xEA9E (((at_ 0x220).setV 0xA 3).setKeys 0x8)).map (·.pc) = some 0x224 ∧
    (run 0xEA9E ((at_ 0x220).setV 0xA 3)).map (·.pc) = some 0x222 := by decide
theorem test_skp_index_fault :
    (run 0xE09E ((at_ 0x202).setV 0 16)).map (fun t => (t.cause.code, t.faultInfo, t.pc)) = some (7, 16, 0x202) := by decide
theorem test_sknp :
    (run 0xEAA1 ((at_ 0x220).setV 0xA 3)).map (·.pc) = some 0x224 ∧
    (run 0xEAA1 (((at_ 0x220).setV 0xA 3).setKeys 0x8)).map (·.pc) = some 0x222 := by decide
theorem test_sknp_index_fault :
    (run 0xE0A1 (regs [(0, 0xFF)])).map (fun t => (t.cause.code, t.faultInfo)) = some (7, 255) := by decide
theorem test_ld_vx_dt : (run 0xF307 (State.reset.setDt 0x2A)).map (·.getV 3) = some 0x2A := by decide
theorem test_ld_dt_vx : (run 0xF115 (regs [(1, 3)])).map (·.dt) = some 3 := by decide
theorem test_ld_st_vx : (run 0xF218 (regs [(2, 2)])).map (fun t => (t.st, t.env.outputs)) = some (2, []) := by decide
theorem test_ld_vx_k_waits :
    (run 0xF10A (regs [(1, 9)])).map (fun t => (t.pc, t.mode, t.waitReg, t.getV 1))
      = some (0x200, .awaitingKey, 1, 9) := by decide
theorem test_ld_vx_k_at_once :
    (run 0xFF0A ((regs [(15, 9)]).setKeys 0x8001)).map (fun t => (t.pc, t.mode, t.getV 15)) = some (0x202, .running, 0) := by decide
theorem test_waiting_step :
    (next ((State.reset.awaitKey 1).setKeys 0x88)).map (fun t => (t.getV 1, t.pc, t.mode)) = some (3, 0x202, .running) ∧
    next (State.reset.awaitKey 1) = some (State.reset.awaitKey 1) := by decide

/-! ### The host's operations (sections 2.7 and 2.8) -/

/-- A queued `step` (R236, R244): `6005` runs before the tick queued after it, which then counts `DT` down. -/
theorem test_queued_step :
    (next (((State.reset.withFetchWord 16 0x6005).setDt 3).withSchedule [.step, .timerTick])).map
      (fun t => (t.getV 0, t.pc, t.dt, t.env.schedule)) = some (5, 0x202, 3, [.timerTick]) ∧
    ((next (((State.reset.withFetchWord 16 0x6005).setDt 3).withSchedule [.step, .timerTick])).bind next).map
      (fun t => (t.getV 0, t.pc, t.dt, t.env.schedule)) = some (5, 0x202, 2, []) := by decide

/-- A queued `step` in a wait polls the keys, and while `Faulted` does nothing (R204, R226). -/
theorem test_queued_step_other_modes :
    (next (host .step ((State.reset.awaitKey 1).setKeys 0x88))).map (fun t => (t.getV 1, t.pc, t.mode))
      = some (3, 0x202, .running) ∧
    next (host .step { State.reset with mode := .faulted, cause := .stackUnderflow })
      = some { State.reset with mode := .faulted, cause := .stackUnderflow } := by decide
theorem test_timer_tick :
    (next (host .timerTick ((State.reset.setDt 1).setSt 2))).map (fun t => (t.dt, t.st, t.env.outputs)) = some (0, 1, []) ∧
    (next (host .timerTick (State.reset.setSt 1))).map (fun t => (t.dt, t.st, t.env.outputs))
      = some (0, 0, [.toneTrigger]) := by decide
theorem test_set_key :
    (next (host (.setKey 15 true) State.reset)).map (·.keys) = some 0x8000 ∧
    (next (host (.setKey 16 true) State.reset)).map (·.keys) = some 0 := by decide
theorem test_load :
    (next (host (.load [0x60, 0x05]) State.reset)).map (fun t => (t.mem, t.pc, t.env.outputs))
      = some ([(512, 0x60), (513, 5)], 0x200, [.loadOk]) := by decide
theorem test_load_too_large :
    (next (host (.load (List.replicate 3585 2)) State.reset)).map (fun t => (t.mem, t.mode, t.env.outputs))
      = some ([], .running, [.loadTooLarge]) := by decide +kernel
theorem test_reset_operation :
    (next (host .reset { State.reset with mode := .faulted, cause := .stackUnderflow, st := 9, keys := 3,
                                          mem := [(512, 1)], sp := 5 })) = some State.reset := by decide
theorem test_read_framebuffer :
    (next (host .readFramebuffer (lit [(3, 1)] State.reset))).map (fun t => (t.fb[1], t.env.outputs))
      = some (8, [.framebuffer (lit [(3, 1)] State.reset).fb]) := by decide
theorem test_tick_while_faulted :
    (next (host .timerTick { State.reset with mode := .faulted, cause := .fetchFault, dt := 3 })).map
      (fun t => (t.dt, t.mode)) = some (2, .faulted) := by decide

/-- R246: load once after a reset, and not after a step. -/
theorem test_schedule_legal :
    scheduleLegal [.load [], .step, .timerTick, .reset, .load []] = true ∧ scheduleLegal [.step, .load []] = false ∧
    scheduleLegal [.load [], .load []] = false := by decide

/-- R274: `JP` to itself ends a run, a wait without a key is neither an end nor a failure. -/
theorem test_end_of_run :
    (State.reset.withFetchWord 16 0x1200).endedNormally ∧ (State.reset.awaitKey 1).waiting = true ∧
    (State.reset.awaitKey 1).goneWrong = false :=
  ⟨⟨by decide, 0x200, by decide, by decide⟩, by decide, by decide⟩

/-! ### Witnesses: every hypothesis of a statement is met somewhere, at the boundaries of its range -/

/-- `LD V1, K` at `PC`, being waited on. -/
def waitState : State := (State.reset.withFetchWord 16 0xF10A).awaitKey 1

/-- A faulted core. -/
def faultState : State := { State.reset with mode := .faulted, cause := .stackUnderflow }

theorem witness_EncodingADecodedWordGivesItBack : decodeWord 0x8376 = some (.shr 3 7) := by decide

theorem witness_DecodingFollowsTheMaskAndMatchTable :
    (⟨17, 0xF00F, 0x8006⟩ : OpcodeRow) ∈ opcodeTable ∧ (0x8376 : Word) &&& 0xF00F = 0x8006 := by decide

/-- At the last address a fetch can read, with nothing queued and with a `step` queued before a tick. -/
theorem witness_StepRunsTheInstructionAtThePc :
    AtStep (at_ 0xFFE) (at_ 0xFFE) ∧
    AtStep ((at_ 0xFFE).withSchedule [.step, .timerTick]) ((at_ 0xFFE).withSchedule [.timerTick]) ∧
    (at_ 0xFFE).mode = .running ∧ (at_ 0xFFE).pc.toNat ≤ 4094 ∧
    decodeBytes [(at_ 0xFFE).mem.read 0xFFE, (at_ 0xFFE).mem.read 0xFFF] = .ok (.nop, []) :=
  ⟨.inl ⟨rfl, rfl⟩, .inr ⟨_, rfl, rfl⟩, by decide⟩

theorem witness_FetchIsBigEndianAndBounded : (at_ 0xFFE).pc.toNat ≤ 4094 ∧ 4094 < (at_ 0xFFF).pc.toNat := by decide

theorem witness_FetchAndDecodeFaultsAreTaken :
    (AtStep (at_ 0xFFF) (at_ 0xFFF) ∧ (at_ 0xFFF).mode = .running ∧ 4094 < (at_ 0xFFF).pc.toNat) ∧
    (AtStep (host .step (at_ 0)) (at_ 0) ∧ (host .step (at_ 0)).mode = .running ∧
      (host .step (at_ 0)).fetch = .ok 0xF090 ∧ decodeWord 0xF090 = none) :=
  ⟨⟨.inl ⟨rfl, rfl⟩, by decide⟩, .inr ⟨_, rfl, rfl⟩, by decide⟩

theorem witness_FaultedCoreStaysAsItIs :
    AtStep (host .step faultState) faultState ∧ faultState.mode = .faulted ∧ faultState.env.schedule = [] :=
  ⟨.inr ⟨_, rfl, rfl⟩, by decide⟩

theorem witness_WaitingStepPollsTheKeys :
    (AtStep waitState waitState ∧ AtStep (host .step waitState) waitState ∧ waitState.mode = .awaitingKey) ∧
    ((waitState.setKeys 0x8000).keyDown 15 = true ∧ ∀ j, j < 15 → (waitState.setKeys 0x8000).keyDown j = false) ∧
    (waitState.setKeys 0xFFFF).keyDown 0 = true ∧ ∀ k, k < 16 → waitState.keyDown k = false :=
  ⟨⟨.inl ⟨rfl, rfl⟩, .inr ⟨_, rfl, rfl⟩, by decide⟩, by decide⟩

theorem witness_InstructionFaultsArePrecise :
    State.reset.mode ≠ .faulted ∧ ∃ t, exec .ret State.reset = .next t ∧ t.mode = .faulted :=
  ⟨by decide, _, rfl, by decide⟩

theorem witness_OnlyTheListedInstructionsFault :
    State.reset.mode ≠ .faulted ∧ ∃ t, exec (.ldB 0) State.reset = .next t ∧ t.mode = .faulted :=
  ⟨by decide, _, rfl, by decide⟩

theorem witness_JumpGoesToItsTarget : (at_ 0xFFF).pc.toNat = (0xFFF : Imm12).toNat := by decide

theorem witness_CallPushesTheReturnAddress :
    (State.reset.setStack 15 State.reset.stack).sp.val < 16 ∧ (State.reset.setStack 16 State.reset.stack).sp.val = 16 := by
  decide

theorem witness_ReturnPopsIntoThePc :
    0 < (State.reset.setStack 1 State.reset.stack).sp.val ∧ 0 < (State.reset.setStack 16 State.reset.stack).sp.val ∧
    State.reset.sp.val = 0 := by decide

theorem witness_StackIsLastInFirstOut :
    State.reset.sp.val + (List.replicate 16 (0x202 : Word)).length ≤ 16 ∧
    (State.reset.setStack 15 State.reset.stack).sp.val < 16 ∧ (State.reset.setStack 16 State.reset.stack).sp.val = 16 ∧
    0 < (State.reset.setStack 1 State.reset.stack).sp.val ∧ State.reset.sp.val = 0 := by decide

theorem witness_RegisterSkipsCompareTwoRegisters : (1 : BitVec 4) ≠ 0 ∧ (15 : BitVec 4) ≠ 0 := by decide

/-- The other registers of a frame, and a destination that is not the flag. -/
theorem witness_frames_of_registers : (14 : RegIx) ≠ 15 ∧ (0 : RegIx) ≠ 14 ∧ (0 : RegIx) ≠ 15 := by decide

theorem witness_ShiftsPutTheBitShiftedOutInTheFlag : (14 : RegIx) ≠ 15 ∧ (15 : RegIx) = 15 := by decide

theorem witness_RandomLoadMasksOneDraw :
    (State.reset.setEnv { Env.initial with draws := [0xA7] }).env.draws = [0xA7] ∧ State.reset.env.draws = [] ∧
    (∀ x nn, Instr.nop ≠ .rnd x nn) ∧ ∃ t, exec .nop State.reset = .next t :=
  ⟨by decide, by decide, nofun, _, rfl⟩

theorem witness_DecimalStoreWritesThreeDigits : Writable (mems 80 [] []) 3 ∧ Writable (mems 0xFFD [] []) 3 := by
  unfold Writable; decide

theorem witness_RegisterStoreWritesTheBlock : Writable (mems 80 [] []) 16 ∧ Writable (mems 0xFF0 [] []) 16 := by
  unfold Writable; decide

theorem witness_RegisterLoadReadsTheBlock : Readable State.reset 16 ∧ Readable (mems 0xFF0 [] []) 16 := by
  unfold Readable; decide

/-- The first and the last byte of each block, below the font's end and above memory's. -/
theorem witness_StoresOutsideWritableMemoryFault :
    (mems 79 [] []).effAddr 0 < 80 ∧ 4095 < (mems 0xFFFF [] []).effAddr 0 ∧
    ((∀ j, j < 2 → 80 ≤ (mems 0xFFE [] []).effAddr j ∧ (mems 0xFFE [] []).effAddr j ≤ 4095) ∧
      4095 < (mems 0xFFE [] []).effAddr 2) ∧
    ((∀ j, j < 15 → 80 ≤ (mems 0xFF1 [] []).effAddr j ∧ (mems 0xFF1 [] []).effAddr j ≤ 4095) ∧
      4095 < (mems 0xFF1 [] []).effAddr 15) := by decide

theorem witness_ReadsPastMemoryFault :
    4095 < (mems 0xFF1 [] []).effAddr (15 : RegIx).toNat ∧ 4095 < (mems 0xFF2 [] []).effAddr ((15 : BitVec 4).toNat - 1) ∧
    (15 : BitVec 4) ≠ 0 ∧ 4095 < (mems 0x1000 [] []).effAddr ((1 : BitVec 4).toNat - 1) := by decide

/-- The store is the last word of memory. -/
theorem witness_NextFetchSeesAStore :
    (1 : RegIx) ≠ 0 ∧ ((at_ 0xFFC).setI 0xFFE).i = ((at_ 0xFFC).setI 0xFFE).pc + 2 ∧
    Writable ((at_ 0xFFC).setI 0xFFE) ((1 : RegIx).toNat + 1) ∧ ((at_ 0xFFC).setI 0xFFE).pc.toNat ≤ 4092 := by
  unfold Writable; decide

/-- Sprite memory up to its last byte; a covered cell, dark and lit; nothing covered. -/
theorem witness_DrawInvertsTheCellsUnderTheSprite :
    Readable (mems 0xFF1 [] []) (15 : BitVec 4).toNat ∧ Readable (mems 0xFFFF [] []) (0 : BitVec 4).toNat ∧
    (SpriteCovers (mems 0x300 [0xC0] [(1, 63), (2, 31)]) 1 2 1 0 31 ∧
      (lit [(0, 31)] (mems 0x300 [0xC0] [(1, 63), (2, 31)])).cell 0 31 = true) ∧
    ¬ SpriteCovers State.reset 0 0 0 0 0 :=
  ⟨by unfold Readable; decide, by unfold Readable; decide,
    ⟨⟨0, 1, by decide, by decide, by decide, by decide, by decide⟩, by decide⟩,
    fun ⟨_, _, h, _⟩ => Nat.not_lt_zero _ h⟩

/-- One draw and the state it leads to, in which the same draw runs again. -/
theorem witness_DrawingTwiceRestoresTheFramebuffer :
    (1 : RegIx) ≠ 15 ∧ (2 : RegIx) ≠ 15 ∧ (mems 0x300 [0xC0] [(1, 63), (2, 31)]).mode = .running ∧
    ∃ t u, exec (.drw 1 2 1) (mems 0x300 [0xC0] [(1, 63), (2, 31)]) = .next t ∧ t.mode = .running ∧
      exec (.drw 1 2 1) t = .next u ∧ (mems 0x300 [0xC0] [(1, 63), (2, 31)]).cell 0 31 = false ∧ t.cell 0 31 = true :=
  ⟨by decide, by decide, by decide, _, _, rfl, by decide +kernel, rfl, by decide +kernel, by decide +kernel⟩

/-- The other clause: a first draw that turns the only lit cell under the sprite off, and lights none. -/
theorem witness_DrawingTwiceRestoresTheFramebuffer_lights_nothing :
    ∃ t u, exec (.drw 1 2 1) (lit [(10, 2)] (mems 0x300 [0x80] [(1, 10), (2, 2)])) = .next t ∧ t.mode = .running ∧
      exec (.drw 1 2 1) t = .next u ∧
      ∀ cx cy, (lit [(10, 2)] (mems 0x300 [0x80] [(1, 10), (2, 2)])).cell cx cy = false → t.cell cx cy = false :=
  ⟨_, _, rfl, by decide +kernel, rfl, by decide +kernel⟩

theorem witness_KeySkipsTestTheNamedKey :
    ((regs [(1, 15)]).getV 1).toNat ≤ 15 ∧ 15 < ((regs [(1, 16)]).getV 1).toNat := by decide

theorem witness_TimerInstructionsReadAndSetTheTimers :
    (regs [(1, 0)]).getV 1 = 0 ∧ (regs [(1, 1)]).getV 1 = 1 := by decide

theorem witness_KeyWaitTakesTheLowestKeyOrWaits :
    ((State.reset.setKeys 0x8000).keyDown 15 = true ∧ ∀ j, j < 15 → (State.reset.setKeys 0x8000).keyDown j = false) ∧
    ∀ k, k < 16 → State.reset.keyDown k = false := by decide

theorem witness_WaitingEqualsReexecuting :
    AtStep waitState waitState ∧ AtStep (host .step waitState) waitState ∧ waitState.mode = .awaitingKey ∧
    waitState.fetch = .ok (encode (.ldVxK waitState.waitReg)) :=
  ⟨.inl ⟨rfl, rfl⟩, .inr ⟨_, rfl, rfl⟩, by decide⟩

theorem witness_WaitStaysAtItsInstruction :
    WaitsAtItsInstruction waitState ∧ (∀ bytes, waitState.env.schedule.head? ≠ some (.load bytes)) ∧
    ∃ t, step waitState = .next t :=
  ⟨fun _ => by decide, nofun, _, rfl⟩

theorem witness_TickCountsBothTimersDown :
    (host .timerTick (State.reset.setSt 1)).env.schedule = [.timerTick] ∧ (host .timerTick (State.reset.setSt 1)).st = 1 := by
  decide

theorem witness_OnlyATickFromOneEmitsTheTone : ∃ t, step (host .timerTick (State.reset.setSt 1)) = .next t := ⟨_, rfl⟩

theorem witness_SetKeyWritesOneLatchBit :
    (host (.setKey 15 true) State.reset).env.schedule = [.setKey 15 true] ∧ 15 ≤ 15 ∧
    (host (.setKey 16 true) State.reset).env.schedule = [.setKey 16 true] ∧ 15 < 16 := by decide

theorem witness_FramebufferReadIsASnapshot :
    (host .readFramebuffer State.reset).env.schedule = [.readFramebuffer] ∧
    (2047 : Fin 2048).val = (31 : Fin 32).val * 64 + (63 : Fin 64).val := by decide

theorem witness_LoadCopiesOrRejectsWhole (b : Byte) :
    (host (.load (List.replicate 3584 b)) State.reset).env.schedule = [.load (List.replicate 3584 b)] ∧
    (List.replicate 3584 b).length ≤ 3584 ∧ 3584 < (List.replicate 3585 b).length :=
  ⟨rfl, List.length_replicate.le, by rw [List.length_replicate]; decide⟩

theorem witness_ResetRestoresEveryPieceOfState : (host .reset faultState).env.schedule = [.reset] := by decide

/-- A state that is not the reset state: full stack of live entries at their bound, `PC` at its bound. -/
theorem witness_EveryStepKeepsTheInvariants :
    ((at_ 4350).setStack 16 (Vector.replicate 16 4096)).Inv ∧
    ∃ t, step ((at_ 4350).setStack 16 (Vector.replicate 16 4096)) = .next t :=
  ⟨{ memWf := by decide
     font := by decide
     pcBound := by decide
     waitPc := by decide
     liveStack := by decide
     faultedIff := by decide }, _, rfl⟩

theorem witness_NoInstructionWritesTheFont : (∃ t, exec (.ldB 0) (mems 80 [] []) = .next t) ∧ 79 < 80 := ⟨⟨_, rfl⟩, by decide⟩

/-- `NOP` meets the hypothesis of every clause but one; registers at the boundary of a block load's range. -/
theorem witness_InstructionsWriteOnlyWhatTheMatrixLists :
    (∃ t, exec .nop State.reset = .next t ∧ t.mode ≠ .faulted) ∧ Instr.nop ≠ .cls ∧ Instr.nop ≠ .ret ∧
    (∀ x y n, Instr.nop ≠ .drw x y n) ∧ (∀ x, Instr.nop ≠ .ldB x) ∧ (∀ x, Instr.nop ≠ .ldMemVx x) ∧
    (∀ nnn, Instr.nop ≠ .call nnn) ∧ (∀ nnn, Instr.nop ≠ .ldI nnn) ∧ (∀ x, Instr.nop ≠ .addI x) ∧
    (∀ x, Instr.nop ≠ .ldF x) ∧ (∀ x, Instr.nop ≠ .ldDtVx x) ∧ (∀ x, Instr.nop ≠ .ldStVx x) ∧
    (∀ x, Instr.nop ≠ .ldVxK x) :=
  ⟨⟨_, rfl, by decide⟩, nofun, nofun, nofun, nofun, nofun, nofun, nofun, nofun, nofun, nofun, nofun, nofun⟩

theorem witness_InstructionsWriteOnlyWhatTheMatrixLists_registers :
    writesRegister 15 (.ldVxMem 14) = false ∧ writesRegister 14 (.ldVxMem 14) = true ∧
    writesRegister 14 (.drw 14 13 1) = false ∧ writesRegister 13 (.addReg 14 13) = false ∧
    writesRegister 15 (.addImm 14 1) = false := by decide

theorem witness_OnlyTheFlagInstructionsWriteTheFlag :
    ∃ t, exec (.addReg 0 0) (regs [(0, 0x80)]) = .next t ∧ t.getV 15 ≠ (regs [(0, 0x80)]).getV 15 :=
  ⟨_, rfl, by decide⟩

theorem witness_NoInstructionReadsTheSoundTimer :
    (∀ x, Instr.ldVxDt 0 ≠ .ldStVx x) ∧ ∃ t, exec (.ldVxDt 0) State.reset = .next t := ⟨nofun, _, rfl⟩

/-- Two states with one live entry, different above it. -/
theorem witness_StaleStackEntriesAreUnobservable :
    SameButStale (State.reset.setStack 1 (Vector.replicate 16 0)) (State.reset.setStack 1 ((Vector.replicate 16 0).set 1 7)) ∧
    (State.reset.setStack 1 (Vector.replicate 16 0)).stack ≠ (State.reset.setStack 1 ((Vector.replicate 16 0).set 1 7)).stack ∧
    ∃ t, step (State.reset.setStack 1 (Vector.replicate 16 0)) = .next t :=
  ⟨⟨rfl, by decide⟩, by decide, _, rfl⟩

theorem witness_FaultAndWaitAreLeftOnlyAsSaid :
    (∃ t, step (host .reset faultState) = .next t ∧ (host .reset faultState).mode = .faulted ∧ t.mode ≠ .faulted) ∧
    ∃ t, step (waitState.setKeys 1) = .next t ∧ (waitState.setKeys 1).mode = .awaitingKey ∧ t.mode ≠ .awaitingKey :=
  ⟨⟨_, rfl, by decide, by decide⟩, ⟨_, rfl, by decide, by decide⟩⟩

theorem witness_OnlyTheHostChangesTheKeys :
    ∃ t, step (host (.setKey 15 true) State.reset) = .next t ∧ t.keys ≠ (host (.setKey 15 true) State.reset).keys :=
  ⟨_, rfl, by decide⟩

theorem witness_EndedRunStaysAsItIs :
    (State.reset.withFetchWord 16 0x1200).endedNormally ∧ (State.reset.withFetchWord 16 0x1200).env.schedule = [] ∧
    AtStep (host .step (State.reset.withFetchWord 16 0x1200)) (State.reset.withFetchWord 16 0x1200) :=
  ⟨⟨by decide, 0x200, by decide, by decide⟩, by decide, .inr ⟨_, rfl, rfl⟩⟩

theorem witness_CanonicalMemoriesThatReadAlikeAreEqual :
    Memory.wf [(80, 1), (4095, 2)] = true ∧
    ∀ a, a ≤ 4095 → Memory.read [(80, 1), (4095, 2)] a = Memory.read (Memory.writeAll [(80, 1)] 4095 [2]) a :=
  ⟨by decide, fun _ _ => rfl⟩

end Sys2Proof.Tests
end

section
/-! PROOFS. What an instruction can do, said once for all 35: `Effect` lists the ways an instruction can end, and `exec_effect`
shows that each ends in one of them. The later proofs about instructions go by its cases. -/

namespace Sys2Proof.Machine

open Sys2Proof.Claims

/-- Every way an instruction can end (R120 to R207, R224), said once: the fields it names are all that changes. `jump` is the
end of an instruction that writes `PC` alone, `registers` of one that advances and writes general registers alone. -/
inductive Effect (s : State) : Instr → State → Prop
  | fault {i : Instr} (r : Raise) (listed : r.cause ∈ executeFaults i) : Effect s i (s.enterFault r (encode i))
  | jump {i : Instr} (w : Word) (bound : s.pc.toNat ≤ 4094 → w.toNat ≤ 4350) : Effect s i (s.setPc w)
  | call (nnn : Imm12) (room : s.sp.val < 16) :
      Effect s (.call nnn)
        ((s.setStack ⟨s.sp.val + 1, by omega⟩ (s.stack.set s.sp.val (s.pc + 2) room)).setPc (zextAddr nnn))
  | ret (live : 0 < s.sp.val) :
      Effect s .ret ((s.setStack ⟨s.sp.val - 1, by omega⟩ s.stack).setPc (s.stack[s.sp.val - 1]'(by omega)))
  | registers {i : Instr} (v : Vector Byte 16)
      (kept : ∀ r : RegIx, writesRegister r i = false → v[r.toNat]'(r.isLt) = s.getV r) :
      Effect s i { s with v := v, pc := s.pc + 2 }
  | random (x : RegIx) (nn : Byte) :
      Effect s (.rnd x nn) (s.advance.drawRand.2.setV x (s.advance.drawRand.1 &&& nn))
  | clear : Effect s .cls (s.advance.setFb (Vector.replicate 32 0))
  | draw (x y : RegIx) (n : BitVec 4) (fb : Framebuffer) (hit : Bool) :
      Effect s (.drw x y n) ((s.advance.setFb fb).setFlag hit)
  | index {i : Instr} (w : Word) (named : (∃ nnn, i = .ldI nnn) ∨ (∃ x, i = .addI x) ∨ ∃ x, i = .ldF x) :
      Effect s i (s.advance.setI w)
  | delay (x : RegIx) : Effect s (.ldDtVx x) (s.advance.setDt (s.getV x))
  | sound (x : RegIx) : Effect s (.ldStVx x) (s.advance.setSt (s.getV x))
  | store {i : Instr} (base : Nat) (bytes : List Byte) (named : (∃ x, i = .ldB x) ∨ ∃ x, i = .ldMemVx x)
      (writable : ∀ k, k < bytes.length → 80 ≤ base + k ∧ base + k ≤ 4095) :
      Effect s i (s.advance.setMem (s.mem.writeAll base bytes))
  | wait (x : RegIx) : Effect s (.ldVxK x) (s.awaitKey x)

variable {s t : State} {i : Instr}

/-! ### Every instruction has one of these effects -/

/-- A state reached by the advance and register writes of the instruction. -/
theorem Effect.ofRegisters (ht : t = { s with v := t.v, pc := s.pc + 2 })
    (kept : ∀ r, writesRegister r i = false → t.getV r = s.getV r) : Effect s i t :=
  ht ▸ .registers t.v kept

theorem Effect.ofSetV (x : RegIx) (b : Byte) (hx : writesRegister x i = true) : Effect s i (s.advance.setV x b) :=
  .ofRegisters rfl fun r hr => State.getV_setV_other s.advance b (by rintro rfl; simp [hx] at hr)

theorem Effect.ofTwoSetV (x y : RegIx) (b c : Byte) (hx : writesRegister x i = true) (hy : writesRegister y i = true) :
    Effect s i ((s.advance.setV x b).setV y c) :=
  .ofRegisters rfl fun r hr => by
    rw [State.getV_setV_other _ _ (by rintro rfl; simp [hy] at hr),
      State.getV_setV_other _ _ (by rintro rfl; simp [hx] at hr), State.advance_eq, State.setPc_getV]

theorem toNat_add_two {w : Word} (h : w.toNat ≤ 4094) : (w + 2).toNat = w.toNat + 2 := by bv_omega

theorem zextAddr_toNat_le (nnn : Imm12) : (zextAddr nnn).toNat ≤ 4095 := by
  have := nnn.isLt
  simp [zextAddr]; omega

theorem indexedTarget_toNat_le (nnn : Imm12) (b : Byte) : (zextAddr nnn + zextByte b).toNat ≤ 4350 := by
  have := nnn.isLt
  have := b.isLt
  simp [zextAddr, zextByte]; omega

theorem Effect.ofAdvance : Effect s i s.advance :=
  .jump _ fun h => by rw [toNat_add_two h]; omega

theorem Effect.ofSkipIf (c : Bool) : Effect s i (s.advance.skipIf c) := by
  cases c with
  | false => exact .ofAdvance
  | true => exact .jump (s.pc + 2 + 2) fun h => by bv_omega

/-- The stores end in the block written, or in the fault of an address that cannot be (R68, R174). -/
theorem storeBytes_effect (base : Nat) (bytes : List Byte) (named : (∃ x, i = .ldB x) ∨ ∃ x, i = .ldMemVx x) :
    ∃ t, finish i s (s.advance.storeBytes base bytes) = .next t ∧ Effect s i t := by
  have listed : .memWriteFault ∈ executeFaults i ∧ .fontWriteFault ∈ executeFaults i := by
    obtain ⟨x, rfl⟩ | ⟨x, rfl⟩ := named <;> simp [executeFaults]
  obtain ⟨hw, h⟩ | ⟨k, _, _, ⟨_, h⟩ | ⟨_, h⟩⟩ := s.advance.storeBytes_cases base bytes
  · exact ⟨_, by rw [h]; rfl, .store base bytes named hw⟩
  · exact ⟨_, by rw [h]; rfl, .fault _ listed.1⟩
  · exact ⟨_, by rw [h]; rfl, .fault _ listed.2⟩

/-- The block reads end as their effects do, or in the fault of an address past memory (R67, R174). -/
theorem loadBytes_effect (base n : Nat) (f : List Byte → State) (listed : 0 < n → .memReadFault ∈ executeFaults i)
    (hf : ∀ bs, bs.length = n → Effect s i (f bs)) :
    ∃ t, finish i s ((s.loadBytes base n).map f) = .next t ∧ Effect s i t := by
  obtain ⟨_, h⟩ | ⟨k, hk, _, _, h⟩ := s.loadBytes_cases base n
  · exact ⟨_, by rw [h]; rfl, hf _ (by simp)⟩
  · exact ⟨_, by rw [h]; rfl, .fault _ (listed (by omega))⟩

/-- The key skips: a skip, or the key index fault (R200, R201). -/
theorem keyTest_effect (x : RegIx) (f : Bool → Bool) (listed : .keyIndexFault ∈ executeFaults i) :
    ∃ t, finish i s ((s.keyTest x).map fun down => s.advance.skipIf (f down)) = .next t ∧ Effect s i t := by
  unfold State.keyTest
  split
  · exact ⟨_, rfl, .fault _ listed⟩
  · exact ⟨_, rfl, .ofSkipIf _⟩

/-! `CALL` and `RET`, an equation for each case of the stack (R124, R126). -/

theorem exec_call_of_room (nnn : Imm12) (room : s.sp.val < 16) :
    exec (.call nnn) s =
      .next ((s.setStack ⟨s.sp.val + 1, by omega⟩ (s.stack.set s.sp.val (s.pc + 2) room)).setPc (zextAddr nnn)) := by
  have hpush : s.advance.push s.advance.pc = .ok _ := dif_pos room
  rw [exec, execCall, hpush]
  rfl

theorem exec_call_of_full (nnn : Imm12) (full : s.sp.val = 16) :
    exec (.call nnn) s = .next (s.enterFault (raise .stackOverflow 16) (encode (.call nnn))) := by
  have hpush : s.advance.push s.advance.pc = .error (raise .stackOverflow s.sp.val) :=
    dif_neg (by simp [full])
  rw [exec, execCall, hpush, full]
  rfl

theorem exec_ret_of_live (live : 0 < s.sp.val) :
    exec .ret s =
      .next ((s.setStack ⟨s.sp.val - 1, by omega⟩ s.stack).setPc (s.stack[s.sp.val - 1]'(by omega))) := by
  have hpop : s.advance.pop = .ok _ := dif_neg (Nat.ne_of_gt live)
  rw [exec, execRet, hpop]
  rfl

theorem exec_ret_of_empty (empty : s.sp.val = 0) :
    exec .ret s = .next (s.enterFault (raise .stackUnderflow 0) (encode .ret)) := by
  have hpop : s.advance.pop = .error (raise .stackUnderflow s.sp.val) := dif_pos empty
  rw [exec, execRet, hpop, empty]
  rfl

theorem State.sp_room_or_full (s : State) : s.sp.val < 16 ∨ s.sp.val = 16 := by omega

theorem call_effect (nnn : Imm12) : ∃ t, exec (.call nnn) s = .next t ∧ Effect s (.call nnn) t := by
  obtain room | full := s.sp_room_or_full
  · exact ⟨_, exec_call_of_room nnn room, .call nnn room⟩
  · exact ⟨_, exec_call_of_full nnn full, .fault _ (by simp [raise, executeFaults])⟩

theorem ret_effect : ∃ t, exec .ret s = .next t ∧ Effect s .ret t := by
  obtain empty | live := Nat.eq_zero_or_pos s.sp.val
  · exact ⟨_, exec_ret_of_empty empty, .fault _ (by simp [raise, executeFaults])⟩
  · exact ⟨_, exec_ret_of_live live, .ret live⟩

theorem ldVxK_effect (x : RegIx) : ∃ t, exec (.ldVxK x) s = .next t ∧ Effect s (.ldVxK x) t := by
  unfold exec execLdVxK
  cases s.lowestKey with
  | some k => exact ⟨_, rfl, .ofSetV x _ (by simp [writesRegister])⟩
  | none =>
    refine ⟨_, rfl, ?_⟩
    have hpc : s.advance.setPc (s.advance.pc - 2) = s := by simp [State.setPc]
    rw [hpc]
    exact .wait x

/-- The block load writes `V[0]` to `V[x]` alone (R176). -/
theorem Effect.ofSetVs (x : RegIx) (bs : List Byte) (hbs : bs.length = x.toNat + 1) :
    Effect s (.ldVxMem x) (s.advance.setVs 0 bs) := by
  refine .ofRegisters (State.setVs_eq bs _ 0) fun r hr => ?_
  have hx : x.toNat < r.toNat := by simpa [writesRegister] using hr
  have := x.isLt
  rw [State.getV_setVs bs _ 0 r (by omega), if_pos (Nat.zero_le _), List.getD_eq_default _ _ (by omega)]
  rfl

/-- Every instruction ends in a next state, by one of the effects listed. -/
theorem exec_effect (i : Instr) (s : State) : ∃ t, exec i s = .next t ∧ Effect s i t := by
  cases i with
  | nop => exact ⟨_, rfl, .ofAdvance⟩
  | cls => exact ⟨_, rfl, .clear⟩
  | ret => exact ret_effect
  | jp nnn => exact ⟨_, rfl, .jump _ fun _ => (zextAddr_toNat_le nnn).trans (by decide)⟩
  | call nnn => exact call_effect nnn
  | jpV0 nnn => exact ⟨_, rfl, .jump _ fun _ => indexedTarget_toNat_le nnn _⟩
  | seImm | sneImm | seReg | sneReg => exact ⟨_, rfl, .ofSkipIf _⟩
  | ldImm x | addImm x | ldReg x | or x | and x | xor x | ldVxDt x =>
    exact ⟨_, rfl, .ofSetV x _ (by simp [writesRegister])⟩
  | addReg x | sub x | subn x =>
    exact ⟨_, rfl, .ofTwoSetV x 15 _ _ (by simp [writesRegister]) (by simp [writesRegister])⟩
  | shr x | shl x =>
    exact ⟨_, rfl, .ofTwoSetV 15 x _ _ (by simp [writesRegister]) (by simp [writesRegister])⟩
  | rnd x nn => exact ⟨_, rfl, .random x nn⟩
  | drw x y n =>
    refine loadBytes_effect _ n.toNat _ (fun hn => ?_) fun _ _ => .draw x y n _ _
    have : n ≠ 0 := by rintro rfl; simp at hn
    simpa [executeFaults] using this
  | skp x => exact keyTest_effect x id (by simp [executeFaults])
  | sknp x => exact keyTest_effect x not (by simp [executeFaults])
  | ldVxK x => exact ldVxK_effect x
  | ldI nnn => exact ⟨_, rfl, .index _ (.inl ⟨nnn, rfl⟩)⟩
  | addI x => exact ⟨_, rfl, .index _ (.inr (.inl ⟨x, rfl⟩))⟩
  | ldF x => exact ⟨_, rfl, .index _ (.inr (.inr ⟨x, rfl⟩))⟩
  | ldDtVx x => exact ⟨_, rfl, .delay x⟩
  | ldStVx x => exact ⟨_, rfl, .sound x⟩
  | ldB x => exact storeBytes_effect _ _ (.inl ⟨x, rfl⟩)
  | ldMemVx x => exact storeBytes_effect _ _ (.inr ⟨x, rfl⟩)
  | ldVxMem x =>
    exact loadBytes_effect _ _ _ (fun _ => by simp [executeFaults]) fun bs hbs => .ofSetVs x bs hbs

/-- What `exec` answers is one of the effects listed. -/
theorem Effect.of_exec (h : exec i s = .next t) : Effect s i t := by
  obtain ⟨u, hu, e⟩ := exec_effect i s
  rw [hu] at h
  exact Host.Outcome.next.inj h ▸ e

end Sys2Proof.Machine
end

section
/-! PROOFS. What each effect leaves unchanged, one lemma for each row of the access matrix of spec/10_state.md R38, and the
statements O53 and O54. -/

namespace Sys2Proof.Machine

open Sys2Proof.Claims

variable {s t : State} {i : Instr}

/-- A draw takes its byte from the environment's queue or counts the free value: the rest of the state stays (R245). -/
theorem State.drawRand_env (s : State) :
    s.drawRand.2.env = { s.env with draws := s.drawRand.2.env.draws, drawCount := s.drawRand.2.env.drawCount } := by
  unfold State.drawRand; split <;> rfl

/-- No instruction reaches the host's schedule, its trace of outputs or the font. -/
theorem Effect.env_eq (e : Effect s i t) :
    t.env = { s.env with draws := t.env.draws, drawCount := t.env.drawCount } := by
  cases e with
  | random x nn => exact s.advance.drawRand_env
  | _ => rfl

theorem Effect.keys_eq (e : Effect s i t) : t.keys = s.keys := by
  cases e with
  | random => simp
  | _ => rfl

theorem Effect.fb_eq (e : Effect s i t) (hcls : i ≠ .cls) (hdrw : ∀ x y n, i ≠ .drw x y n) : t.fb = s.fb := by
  cases e with
  | clear => exact absurd rfl hcls
  | draw x y n => exact absurd rfl (hdrw x y n)
  | random => simp
  | _ => rfl

theorem Effect.mem_eq (e : Effect s i t) (hB : ∀ x, i ≠ .ldB x) (hM : ∀ x, i ≠ .ldMemVx x) : t.mem = s.mem := by
  cases e with
  | store _ _ named =>
    obtain ⟨x, rfl⟩ | ⟨x, rfl⟩ := named
    · exact absurd rfl (hB x)
    · exact absurd rfl (hM x)
  | random => simp
  | _ => rfl

theorem Effect.stack_eq (e : Effect s i t) (hcall : ∀ nnn, i ≠ .call nnn) : t.stack = s.stack := by
  cases e with
  | call nnn => exact absurd rfl (hcall nnn)
  | random => simp
  | _ => rfl

theorem Effect.sp_eq (e : Effect s i t) (hcall : ∀ nnn, i ≠ .call nnn) (hret : i ≠ .ret) : t.sp = s.sp := by
  cases e with
  | call nnn => exact absurd rfl (hcall nnn)
  | ret => exact absurd rfl hret
  | random => simp
  | _ => rfl

theorem Effect.i_eq (e : Effect s i t) (hI : ∀ nnn, i ≠ .ldI nnn) (hA : ∀ x, i ≠ .addI x) (hF : ∀ x, i ≠ .ldF x) :
    t.i = s.i := by
  cases e with
  | index _ named =>
    obtain ⟨nnn, rfl⟩ | ⟨x, rfl⟩ | ⟨x, rfl⟩ := named
    · exact absurd rfl (hI nnn)
    · exact absurd rfl (hA x)
    · exact absurd rfl (hF x)
  | random => simp
  | _ => rfl

theorem Effect.dt_eq (e : Effect s i t) (hD : ∀ x, i ≠ .ldDtVx x) : t.dt = s.dt := by
  cases e with
  | delay x => exact absurd rfl (hD x)
  | random => simp
  | _ => rfl

theorem Effect.st_eq (e : Effect s i t) (hS : ∀ x, i ≠ .ldStVx x) : t.st = s.st := by
  cases e with
  | sound x => exact absurd rfl (hS x)
  | random => simp
  | _ => rfl

theorem Effect.waitReg_eq (e : Effect s i t) (hK : ∀ x, i ≠ .ldVxK x) : t.waitReg = s.waitReg := by
  cases e with
  | wait x => exact absurd rfl (hK x)
  | random => simp
  | _ => rfl

theorem Effect.getV_eq (e : Effect s i t) {r : RegIx} (hr : writesRegister r i = false) : t.getV r = s.getV r := by
  cases e with
  | registers v kept => exact kept r hr
  | random x nn =>
    have hx : r ≠ x := by simpa [writesRegister] using hr
    rw [State.getV_setV_other _ _ hx, State.drawRand_state]
    rfl
  | draw x y n =>
    have hflag : r ≠ 15 := by simpa [writesRegister] using hr
    exact State.getV_setV_other _ _ hflag
  | _ => rfl

/-- Fault entry alone writes the fault record, and but for the wait it alone writes the mode (R33, R224). -/
theorem Effect.faultRecord_eq (e : Effect s i t) (hmode : t.mode ≠ .faulted) :
    t.cause = s.cause ∧ t.faultPc = s.faultPc ∧ t.faultOp = s.faultOp ∧ t.faultInfo = s.faultInfo ∧
      ((∀ x, i ≠ .ldVxK x) → t.mode = s.mode) := by
  cases e with
  | fault => exact absurd rfl hmode
  | wait x => exact ⟨rfl, rfl, rfl, rfl, fun hK => absurd rfl (hK x)⟩
  | random => simp
  | _ => exact ⟨rfl, rfl, rfl, rfl, fun _ => rfl⟩

/-! ### The statements about instructions -/

/-- Settles O53: the laws above, one for each row of R38. -/
theorem instructionsWriteOnlyWhatTheMatrixLists : Obligations.InstructionsWriteOnlyWhatTheMatrixLists := by
  intro i s t h
  have e := Effect.of_exec h
  have henv := e.env_eq
  exact ⟨e.keys_eq, by rw [henv], by rw [henv], by rw [henv], e.fb_eq, e.mem_eq, e.stack_eq, e.sp_eq, e.i_eq, e.dt_eq,
    e.st_eq, e.waitReg_eq, fun _ => e.getV_eq, e.faultRecord_eq⟩

/-- Settles O54: an instruction that changes `V[15]` is one for which R38 lists it, by name or as the flag. -/
theorem onlyTheFlagInstructionsWriteTheFlag : Obligations.OnlyTheFlagInstructionsWriteTheFlag := by
  intro i s t h hne
  have hw : writesRegister 15 i = true := by
    by_contra hw
    exact hne ((Effect.of_exec h).getV_eq (by simpa using hw))
  cases i with
  | addReg | sub | shr | subn | shl | drw => exact .inl (by simp)
  | ldVxMem x =>
    have hx : x = 15 := by
      have : 15 ≤ x.toNat := by simpa [writesRegister] using hw
      bv_omega
    simp [hx]
  | ldImm x | addImm x | rnd x | ldReg x | or x | and x | xor x | ldVxDt x | ldVxK x =>
    have hx : (15 : RegIx) = x := by simpa [writesRegister] using hw
    simp [← hx]
  | _ => simp [writesRegister] at hw

end Sys2Proof.Machine
end

section
/-! PROOFS. What a step can do: one operation of the host, the instruction step among them; and the statement O58. -/

namespace Sys2Proof.Machine

open Sys2Proof.Claims

variable {s t : State}

/-- A step is one operation of the host, `step` where none is queued (R13, R244). -/
theorem step_eq_operate (s : State) :
    step s = (s.withSchedule s.env.schedule.tail).operate (s.env.schedule.headD .step) := by
  cases h : s.env.schedule with
  | nil =>
    have hs : s.withSchedule [] = s := by rw [← h]; rfl
    rw [step_unscheduled h, List.tail_nil, List.headD_nil, hs]
    rfl
  | cons op ops => rw [step_scheduled h, List.tail_cons, List.headD_cons]

/-! The instruction step, an equation for each mode (R120, R204, R226). -/

theorem State.instructionStep_of_faulted (hm : s.mode = .faulted) : s.instructionStep = .next s := by
  simp [State.instructionStep, hm]

theorem State.instructionStep_of_awaitingKey (hm : s.mode = .awaitingKey) : s.instructionStep = .next s.pollKey := by
  simp [State.instructionStep, hm]

theorem State.instructionStep_of_running (hm : s.mode = .running) : s.instructionStep = s.runInstruction := by
  simp [State.instructionStep, hm]

/-- The instruction step: nothing, the wake of a waiting core, the fault of a fetch or of an illegal word, or one
instruction fetched inside memory. -/
theorem State.instructionStep_cases (h : s.instructionStep = .next t) :
    t = s ∨ (s.mode = .awaitingKey ∧ ∃ k, t = s.wake k) ∨
    (∃ r w, r.cause ≠ .none ∧ t = s.enterFault r w) ∨
    (s.mode = .running ∧ s.pc.toNat ≤ 4094 ∧ ∃ i, Effect s i t) := by
  cases hm : s.mode with
  | faulted =>
    rw [State.instructionStep_of_faulted hm] at h
    exact .inl (Host.Outcome.next.inj h).symm
  | awaitingKey =>
    rw [State.instructionStep_of_awaitingKey hm] at h
    have ht : t = s.pollKey := (Host.Outcome.next.inj h).symm
    obtain ⟨k, _, hk⟩ | ⟨_, hk⟩ := s.pollKey_cases
    · exact .inr (.inl ⟨rfl, k, ht.trans hk⟩)
    · exact .inl (ht.trans hk)
  | running =>
    rw [State.instructionStep_of_running hm] at h
    obtain ⟨r, hf, hrun⟩ | ⟨w, _, _, hrun⟩ | ⟨w, i, hf, _, hrun⟩ := s.runInstruction_cases
    · have hr : r.cause ≠ .none := by
        obtain ⟨_, hok⟩ | ⟨_, herr⟩ := s.fetch_cases
        · simp [hok] at hf
        · rw [← Except.error.inj (herr.symm.trans hf)]; simp [raise]
      exact .inr (.inr (.inl ⟨r, 0, hr, Host.Outcome.next.inj (h.symm.trans hrun)⟩))
    · exact .inr (.inr (.inl ⟨_, w, by simp [raise], Host.Outcome.next.inj (h.symm.trans hrun)⟩))
    · have hpc : s.pc.toNat ≤ 4094 := by
        obtain ⟨hpc, _⟩ | ⟨_, herr⟩ := s.fetch_cases
        · exact hpc
        · simp [herr] at hf
      exact .inr (.inr (.inr ⟨rfl, hpc, i, .of_exec (hrun ▸ h)⟩))

/-- No instruction step reaches the key latch (R28). -/
theorem State.instructionStep_keys (h : s.instructionStep = .next t) : t.keys = s.keys := by
  obtain rfl | ⟨_, k, rfl⟩ | ⟨r, w, _, rfl⟩ | ⟨_, _, i, e⟩ := State.instructionStep_cases h
  · rfl
  · rfl
  · rfl
  · exact e.keys_eq

theorem State.timerTick_keys (s : State) : s.timerTick.keys = s.keys := by rw [s.timerTick_eq]

theorem State.load_keys (s : State) (bytes : List Byte) : (s.load bytes).keys = s.keys := by rw [s.load_eq]

theorem State.setKey_of_gt (s : State) {k : Nat} (p : Bool) (h : 15 < k) : s.setKey k p = s := by
  rw [State.setKey, if_pos h]

/-- Of the operations only `reset` and a `set_key` that names a key change the latch. -/
theorem State.operate_keys {op : HostOp} (h : s.operate op = .next t) (hne : t.keys ≠ s.keys) :
    op = .reset ∨ ∃ k p, k ≤ 15 ∧ op = .setKey k p := by
  cases op with
  | reset => exact .inl rfl
  | load bytes => exact absurd (Host.Outcome.next.inj h ▸ s.load_keys bytes) hne
  | step => exact absurd (State.instructionStep_keys h) hne
  | timerTick => exact absurd (Host.Outcome.next.inj h ▸ s.timerTick_keys) hne
  | setKey k p =>
    refine .inr ⟨k, p, ?_, rfl⟩
    by_contra hk
    have ht : t = s := (Host.Outcome.next.inj h).symm.trans (s.setKey_of_gt p (by omega))
    exact hne (by rw [ht])
  | readFramebuffer => exact absurd (Host.Outcome.next.inj h ▸ rfl) hne

/-- An operation that `step` performs and that is not `step` is the first one queued. -/
theorem head?_of_headD_ne_step {ops : List HostOp} {op : HostOp} (h : ops.headD .step = op) (hop : op ≠ .step) :
    ops.head? = some op := by
  cases ops with
  | nil => exact absurd h.symm hop
  | cons a l => simpa using h

/-- Settles O58: the operation a step performs is the queued one, and of these two alone reach the latch. -/
theorem onlyTheHostChangesTheKeys : Obligations.OnlyTheHostChangesTheKeys := by
  intro s t h hne
  rw [step_eq_operate] at h
  obtain hop | ⟨k, p, hk, hop⟩ := State.operate_keys h hne
  · exact .inl (head?_of_headD_ne_step hop nofun)
  · exact .inr ⟨k, p, hk, head?_of_headD_ne_step hop nofun⟩

end Sys2Proof.Machine
end

section
/-! PROOFS. The invariants of spec/10_state.md R37: they hold after reset (O50; the reset values themselves are O49), and each
update, each effect and each operation keeps them (O51). -/

namespace Sys2Proof.Machine

open Sys2Proof.Claims

variable {s t : State}

/-- A block write inside the writable addresses 80 to 4095 keeps the canonical form. -/
theorem Memory.wf_writeAll_of_writable {m : Memory} {base : Nat} {bytes : List Byte}
    (hw : ∀ k, k < bytes.length → 80 ≤ base + k ∧ base + k ≤ 4095) (h : m.wf = true) :
    (m.writeAll base bytes).wf = true := by
  cases bytes with
  | nil => exact h
  | cons b bs =>
    have := hw bs.length (by simp)
    exact Memory.wf_writeAll _ base (by simp [Config.memSize]; omega) h

/-- A block write inside the writable addresses leaves the font region alone (R62). -/
theorem Memory.read_font_writeAll {m : Memory} {base a : Nat} {bytes : List Byte}
    (hw : ∀ k, k < bytes.length → 80 ≤ base + k ∧ base + k ≤ 4095) (ha : a < 80) :
    (m.writeAll base bytes).read a = m.read a := by
  cases bytes with
  | nil => rfl
  | cons b bs =>
    have := hw 0 (by simp)
    exact Memory.read_writeAll_outside _ m base a (.inl (by omega))

theorem State.resetWith_mem (e : Env) : (State.resetWith e).mem = Memory.ofFont e.font := rfl

/-- A state that reset leaves, in whatever environment, meets the invariants. -/
theorem State.Inv.resetWith (e : Env) : (State.resetWith e).Inv where
  memWf := Memory.wf_ofFont e.font
  font a _ := Memory.read_ofFont e.font a
  pcBound := (by decide : (BitVec.ofNat 16 Config.progBase).toNat ≤ 4350)
  waitPc := nofun
  liveStack k _ hk := absurd hk (Nat.not_lt_zero k)
  faultedIff := ⟨nofun, fun h => absurd rfl h⟩

/-- Settles O50: it is the state that reset leaves in the initial environment. -/
theorem resetMeetsTheInvariants : Obligations.ResetMeetsTheInvariants :=
  .resetWith Env.initial

theorem fontByte_of_ge (f : Font) {a : Nat} (h : 80 ≤ a) : fontByte f a = 0 := by
  rw [fontByte, dif_neg (by omega)]

/-- Bytes that equal what an unlisted address reads as take no entry (log entry 9). -/
theorem Memory.writeAll_nil_of_base : ∀ (bytes : List Byte) (a : Nat),
    (∀ k, (h : k < bytes.length) → bytes[k] = baseByte (a + k)) → Memory.writeAll [] a bytes = []
  | [], _, _ => rfl
  | b :: bs, a, h => by
    have hb : b = baseByte a := h 0 (by simp)
    have hw : Memory.write [] a b = [] := if_pos hb
    rw [Memory.writeAll, hw]
    refine Memory.writeAll_nil_of_base bs (a + 1) fun k hk => ?_
    rw [Nat.add_right_comm]
    exact h (k + 1) (Nat.succ_lt_succ hk)

theorem Memory.ofFont_default : Memory.ofFont fontDefault = [] :=
  Memory.writeAll_nil_of_base _ 0 fun k hk => by simp [fontBytes, baseByte]

/-- Settles O49: memory by the laws of the reset memory, every other field by its definition. -/
theorem resetStateHasTheResetValues : Obligations.ResetStateHasTheResetValues := by
  have hmem : State.reset.mem = Memory.ofFont fontDefault := State.resetWith_mem Env.initial
  have hread : ∀ a, State.reset.mem.read a = fontByte fontDefault a := fun a => by rw [hmem, Memory.read_ofFont]
  have hv : ∀ r, State.reset.getV r = 0 := fun r => Vector.getElem_replicate r.isLt
  have hstack : ∀ k, (h : k < 16) → State.reset.stack[k]'h = 0 := fun k h => Vector.getElem_replicate h
  have hcell : ∀ cx cy, State.reset.cell cx cy = false := fun cx cy => by
    have hrow : State.reset.fb[cy] = 0 := Vector.getElem_replicate cy.isLt
    rw [State.cell, fbCell, hrow]
    exact BitVec.getLsbD_zero
  exact ⟨rfl, rfl, rfl, rfl, rfl, rfl, hv, hstack, hcell, hmem.trans Memory.ofFont_default, fun a _ => hread a,
    fun a ha => (hread a).trans (fontByte_of_ge _ ha), (hread 0).trans rfl, (hread 79).trans rfl,
    rfl, rfl, rfl, rfl, rfl, rfl, rfl⟩

/-- The environment but for its font is free. -/
theorem State.Inv.setEnv (hs : s.Inv) {e : Env} (he : e.font = s.env.font) : (s.setEnv e).Inv :=
  { hs with font := fun a ha => (hs.font a ha).trans (by rw [State.setEnv_env, he]) }

theorem State.Inv.withSchedule (hs : s.Inv) (ops : List HostOp) : (s.withSchedule ops).Inv :=
  hs.setEnv rfl

/-- A running core goes to an address within the bound. -/
theorem State.Inv.setPc (hs : s.Inv) (hm : s.mode = .running) {w : Word} (hw : w.toNat ≤ 4350) : (s.setPc w).Inv :=
  { hs with
    pcBound := hw
    waitPc := fun h => by rw [State.setPc_mode, hm] at h; cases h }

theorem State.Inv.setMem (hs : s.Inv) {base : Nat} {bytes : List Byte}
    (hw : ∀ k, k < bytes.length → 80 ≤ base + k ∧ base + k ≤ 4095) : (s.setMem (s.mem.writeAll base bytes)).Inv :=
  { hs with
    memWf := Memory.wf_writeAll_of_writable hw hs.memWf
    font := fun a ha => (Memory.read_font_writeAll hw ha).trans (hs.font a ha) }

theorem State.Inv.enterFault (hs : s.Inv) {r : Raise} (hr : r.cause ≠ .none) (w : Word) : (s.enterFault r w).Inv :=
  { hs with
    waitPc := nofun
    faultedIff := ⟨fun _ => hr, fun _ => rfl⟩ }

/-- A push of an address a live entry may hold. -/
theorem State.Inv.push (hs : s.Inv) (room : s.sp.val < 16) {w : Word} (hw : w.toNat ≤ 4096) :
    (s.setStack ⟨s.sp.val + 1, by omega⟩ (s.stack.set s.sp.val w room)).Inv :=
  { hs with
    liveStack := fun k hk hlive => by
      simp only [State.setStack_stack, State.setStack_sp, Vector.getElem_set] at hlive ⊢
      split
      · exact hw
      · exact hs.liveStack k hk (by omega) }

theorem State.Inv.pop (hs : s.Inv) : (s.setStack ⟨s.sp.val - 1, by omega⟩ s.stack).Inv :=
  { hs with liveStack := fun k hk hlive => hs.liveStack k hk (Nat.lt_of_lt_of_le hlive (Nat.sub_le _ _)) }

theorem State.Inv.wake (hs : s.Inv) (hm : s.mode = .awaitingKey) (k : Nat) : (s.wake k).Inv :=
  { hs with
    pcBound := by
      have hpc := hs.waitPc hm
      rw [State.wake_pc, toNat_add_two hpc]; omega
    waitPc := nofun
    faultedIff := by simpa [hm] using hs.faultedIff }

theorem State.Inv.awaitKey (hs : s.Inv) (hm : s.mode = .running) (hpc : s.pc.toNat ≤ 4094) (x : RegIx) :
    (s.awaitKey x).Inv :=
  { hs with
    waitPc := fun _ => hpc
    faultedIff := by simpa [hm] using hs.faultedIff }

theorem none_not_mem_executeFaults (i : Instr) : Cause.none ∉ executeFaults i := by
  cases i with
  | drw x y n => by_cases hn : n = 0 <;> simp [executeFaults, hn]
  | _ => simp [executeFaults]

/-- An instruction fetched by a running core keeps the invariants. -/
theorem Effect.inv {i : Instr} (e : Effect s i t) (hs : s.Inv) (hm : s.mode = .running) (hpc : s.pc.toNat ≤ 4094) :
    t.Inv := by
  have hnext : (s.pc + 2).toNat ≤ 4096 := by rw [toNat_add_two hpc]; omega
  have hadv : s.advance.Inv := hs.setPc hm (by omega)
  cases e with
  | fault r listed => exact hs.enterFault (fun h => none_not_mem_executeFaults i (h ▸ listed)) _
  | jump w bound => exact hs.setPc hm (bound hpc)
  | call nnn room => exact (hs.push room hnext).setPc hm ((zextAddr_toNat_le nnn).trans (by decide))
  | ret live => exact hs.pop.setPc hm ((hs.liveStack _ _ (by omega)).trans (by decide))
  | random x nn =>
    have hdraw : s.advance.drawRand.2.Inv :=
      s.advance.drawRand_state ▸ hadv.setEnv (by rw [s.advance.drawRand_env])
    exact { hdraw with }
  | store base bytes _ writable => exact hadv.setMem writable
  | wait x => exact hs.awaitKey hm hpc x
  -- No field of the invariants is written after the advance.
  | registers | clear | draw | index | delay | sound => exact { hadv with }

theorem State.Inv.instructionStep (hs : s.Inv) (h : s.instructionStep = .next t) : t.Inv := by
  obtain rfl | ⟨hm, k, rfl⟩ | ⟨r, w, hr, rfl⟩ | ⟨hm, hpc, i, e⟩ := State.instructionStep_cases h
  · exact hs
  · exact hs.wake hm k
  · exact hs.enterFault hr w
  · exact e.inv hs hm hpc

theorem State.Inv.load (hs : s.Inv) (bytes : List Byte) : (s.load bytes).Inv := by
  unfold State.load
  split
  · exact hs.setEnv rfl
  · next h =>
    have hw : ∀ k, k < bytes.length → 80 ≤ 512 + k ∧ 512 + k ≤ 4095 := fun k hk => by
      simp only [Config.maxProgLen] at h; omega
    exact (hs.setMem hw).setEnv rfl

theorem State.Inv.timerTick (hs : s.Inv) : s.timerTick.Inv := by
  unfold State.timerTick
  split <;> exact { hs with }

theorem State.Inv.setKey (hs : s.Inv) (k : Nat) (p : Bool) : (s.setKey k p).Inv := by
  rw [State.setKey_eq]
  exact { hs with }

theorem State.Inv.operate (hs : s.Inv) {op : HostOp} (h : s.operate op = .next t) : t.Inv := by
  cases op with
  | reset => exact Host.Outcome.next.inj h ▸ .resetWith s.env
  | load bytes => exact Host.Outcome.next.inj h ▸ hs.load bytes
  | step => exact hs.instructionStep h
  | timerTick => exact Host.Outcome.next.inj h ▸ hs.timerTick
  | setKey k p => exact Host.Outcome.next.inj h ▸ hs.setKey k p
  | readFramebuffer => exact Host.Outcome.next.inj h ▸ hs.setEnv rfl

/-- Settles O51: each operation keeps the invariants, from whatever is left queued. -/
theorem everyStepKeepsTheInvariants : Obligations.EveryStepKeepsTheInvariants := by
  intro s t hs h
  rw [step_eq_operate] at h
  exact (hs.withSchedule _).operate h

end Sys2Proof.Machine
end

section
/-! PROOFS. What an instruction does not look at: the sound timer (O55) and, but for `CALL` and `RET`, the stack. Both are shown
at once, by overlaying a state with others of the two. -/

namespace Sys2Proof.Machine

open Sys2Proof.Claims

variable {s t : State} {i : Instr} {b : Byte} {k : Vector Word 16}

/-- The state with another sound timer and another stack under the same `SP`. -/
def State.overlay (s : State) (b : Byte) (k : Vector Word 16) : State := (s.setStack s.sp k).setSt b

@[simp] theorem State.overlay_env : (s.overlay b k).env = s.env := rfl
@[simp] theorem State.overlay_lowestKey : (s.overlay b k).lowestKey = s.lowestKey := rfl

theorem State.skipIf_overlay (c : Bool) : (s.overlay b k).skipIf c = (s.skipIf c).overlay b k := by
  cases c <;> rfl

theorem State.setVs_overlay (bs : List Byte) :
    ∀ (s : State) (j : Nat), (s.overlay b k).setVs j bs = (s.setVs j bs).overlay b k := by
  induction bs with
  | nil => intro s j; rfl
  | cons c cs ih => intro s j; exact ih (s.setV (BitVec.ofNat 4 j) c) (j + 1)

theorem State.drawRand_overlay : (s.overlay b k).drawRand = (s.drawRand.1, s.drawRand.2.overlay b k) := by
  simp only [State.drawRand, State.overlay_env]
  cases s.env.draws <;> rfl

theorem State.storeBytes_overlay (base : Nat) (bytes : List Byte) :
    (s.overlay b k).storeBytes base bytes = (s.storeBytes base bytes).map (·.overlay b k) := by
  unfold State.storeBytes
  cases firstFailing writeCheck base bytes.length <;> rfl

/-- An instruction's end, fault entry among it, commutes with the overlay. -/
theorem finish_overlay {r : Except Raise State} (h : finish i s r = .next t) :
    finish i (s.overlay b k) (r.map (·.overlay b k)) = .next (t.overlay b k) := by
  cases r <;> exact Host.Outcome.next.inj h ▸ rfl

/-- The same of an instruction that reads first, when the effects it goes on with commute. -/
theorem finish_map_overlay {α : Type} (r : Except Raise α) {f g : α → State} (hfg : ∀ a, g a = (f a).overlay b k)
    (h : finish i s (r.map f) = .next t) : finish i (s.overlay b k) (r.map g) = .next (t.overlay b k) := by
  have hmap : r.map g = (r.map f).map (·.overlay b k) := by
    cases r with
    | error e => rfl
    | ok a => exact congrArg _ (hfg a)
  rw [hmap]
  exact finish_overlay h

theorem finish_storeBytes_overlay {base : Nat} {bytes : List Byte}
    (h : finish i s (s.advance.storeBytes base bytes) = .next t) :
    finish i (s.overlay b k) ((s.overlay b k).advance.storeBytes base bytes) = .next (t.overlay b k) := by
  have hstore : (s.overlay b k).advance.storeBytes base bytes = (s.advance.storeBytes base bytes).map (·.overlay b k) :=
    s.advance.storeBytes_overlay base bytes
  rw [hstore]
  exact finish_overlay h

/-- Only `CALL` and `RET` touch the stack and only `LD ST, Vx` touches `ST`: every other instruction does the same
whatever they hold. -/
theorem exec_overlay (hcall : ∀ nnn, i ≠ .call nnn) (hret : i ≠ .ret) (hst : ∀ x, i ≠ .ldStVx x)
    (h : exec i s = .next t) : exec i (s.overlay b k) = .next (t.overlay b k) := by
  cases i with
  | call nnn => exact absurd rfl (hcall nnn)
  | ret => exact absurd rfl hret
  | ldStVx x => exact absurd rfl (hst x)
  | seImm x | sneImm x | seReg x | sneReg x =>
    exact Host.Outcome.next.inj h ▸ congrArg _ (s.advance.skipIf_overlay _)
  | rnd x nn =>
    have hdraw : (s.overlay b k).advance.drawRand = _ := s.advance.drawRand_overlay
    rw [exec, execRnd, hdraw]
    exact Host.Outcome.next.inj h ▸ rfl
  | drw x y n => exact finish_map_overlay (s.loadBytes _ _) (fun _ => rfl) h
  | skp x | sknp x => exact finish_map_overlay (s.keyTest x) (fun _ => s.advance.skipIf_overlay _) h
  | ldVxK x =>
    rw [exec, execLdVxK] at h ⊢
    rw [State.overlay_lowestKey]
    cases hk : s.lowestKey <;> rw [hk] at h <;> exact Host.Outcome.next.inj h ▸ rfl
  | ldB x | ldMemVx x => exact finish_storeBytes_overlay h
  | ldVxMem x => exact finish_map_overlay (s.loadBytes _ _) (fun bs => State.setVs_overlay bs s.advance 0) h
  | _ => exact Host.Outcome.next.inj h ▸ rfl

theorem exec_call_setSt {nnn : Imm12} (h : exec (.call nnn) s = .next t) :
    exec (.call nnn) (s.setSt b) = .next (t.setSt b) := by
  obtain room | full := s.sp_room_or_full
  · rw [exec_call_of_room nnn room] at h
    exact Host.Outcome.next.inj h ▸ exec_call_of_room (s := s.setSt b) nnn room
  · rw [exec_call_of_full nnn full] at h
    exact Host.Outcome.next.inj h ▸ exec_call_of_full (s := s.setSt b) nnn full

theorem exec_ret_setSt (h : exec .ret s = .next t) : exec .ret (s.setSt b) = .next (t.setSt b) := by
  obtain empty | live := Nat.eq_zero_or_pos s.sp.val
  · rw [exec_ret_of_empty empty] at h
    exact Host.Outcome.next.inj h ▸ exec_ret_of_empty (s := s.setSt b) empty
  · rw [exec_ret_of_live live] at h
    exact Host.Outcome.next.inj h ▸ exec_ret_of_live (s := s.setSt b) live

/-- Settles O55: `CALL` and `RET` by their equations, every other instruction by the overlay of its own stack. -/
theorem noInstructionReadsTheSoundTimer : Obligations.NoInstructionReadsTheSoundTimer := by
  intro i s t b hst h
  by_cases hcall : ∃ nnn, i = .call nnn
  · obtain ⟨nnn, rfl⟩ := hcall
    exact exec_call_setSt h
  by_cases hret : i = .ret
  · subst hret
    exact exec_ret_setSt h
  have hcall : ∀ nnn, i ≠ .call nnn := not_exists.mp hcall
  have hstack : t.stack = s.stack := (Effect.of_exec h).stack_eq hcall
  calc exec i (s.setSt b) = .next (t.overlay b s.stack) := exec_overlay hcall hret hst h
    _ = .next (t.setSt b) := by rw [← hstack]; rfl

end Sys2Proof.Machine
end

section
/-! PROOFS. Stale stack entries are unobservable (O56): every operation keeps the relation `SameButStale`. -/

namespace Sys2Proof.Claims

open Sys2Proof.Machine

variable {s s' t : State} {i : Instr} {k : Vector Word 16}

theorem SameButStale.refl (s : State) : SameButStale s s := ⟨rfl, fun _ _ _ => rfl⟩

/-- Two states that differ in stale entries, by the stack of the second. -/
theorem sameButStale_iff :
    SameButStale s s' ↔
      ∃ k, s' = s.setStack s.sp k ∧ ∀ j, (h : j < 16) → j < s.sp.val → k[j]'h = s.stack[j]'h := by
  constructor
  · rintro ⟨hs, hlive⟩
    exact ⟨s'.stack, hs, hlive⟩
  · rintro ⟨k, rfl, hlive⟩
    exact ⟨rfl, hlive⟩

/-- The stacks stay as they differ where neither `SP` nor the stack is written. -/
theorem SameButStale.of_unwritten (hlive : ∀ j, (h : j < 16) → j < s.sp.val → k[j]'h = s.stack[j]'h)
    (hsp : t.sp = s.sp) (hstack : t.stack = s.stack) : SameButStale t (t.setStack t.sp k) :=
  sameButStale_iff.mpr ⟨k, rfl, fun j h hj => by rw [hstack]; exact hlive j h (hsp ▸ hj)⟩

theorem SameButStale.exec_call {nnn : Imm12} (hs : SameButStale s s') (h : exec (.call nnn) s = .next t) :
    ∃ t', exec (.call nnn) s' = .next t' ∧ SameButStale t t' := by
  obtain ⟨k, rfl, hlive⟩ := sameButStale_iff.mp hs
  obtain room | full := s.sp_room_or_full
  · rw [exec_call_of_room nnn room] at h
    obtain rfl := Host.Outcome.next.inj h
    refine ⟨_, exec_call_of_room (s := s.setStack s.sp k) nnn room, rfl, fun j hj hlt => ?_⟩
    have hlt : j < s.sp.val + 1 := hlt
    simp only [State.setPc_stack, State.setStack_stack, State.setStack_sp, State.setStack_pc, Vector.getElem_set]
    split
    · rfl
    · exact hlive j hj (by omega)
  · rw [exec_call_of_full nnn full] at h
    obtain rfl := Host.Outcome.next.inj h
    exact ⟨_, exec_call_of_full (s := s.setStack s.sp k) nnn full, .of_unwritten hlive rfl rfl⟩

theorem SameButStale.exec_ret (hs : SameButStale s s') (h : exec .ret s = .next t) :
    ∃ t', exec .ret s' = .next t' ∧ SameButStale t t' := by
  obtain ⟨k, rfl, hlive⟩ := sameButStale_iff.mp hs
  obtain empty | live := Nat.eq_zero_or_pos s.sp.val
  · rw [exec_ret_of_empty empty] at h
    obtain rfl := Host.Outcome.next.inj h
    exact ⟨_, exec_ret_of_empty (s := s.setStack s.sp k) empty, .of_unwritten hlive rfl rfl⟩
  · rw [exec_ret_of_live live] at h
    obtain rfl := Host.Outcome.next.inj h
    have htop : k[s.sp.val - 1]'(by omega) = s.stack[s.sp.val - 1]'(by omega) := hlive _ _ (by omega)
    refine ⟨_, exec_ret_of_live (s := s.setStack s.sp k) live, ?_, fun j hj hlt => ?_⟩
    · simp only [State.setStack_stack, State.setStack_sp, htop]; rfl
    · exact hlive j hj (Nat.lt_of_lt_of_le hlt (Nat.sub_le _ _))

theorem SameButStale.exec_ldStVx {x : RegIx} (hs : SameButStale s s') (h : exec (.ldStVx x) s = .next t) :
    ∃ t', exec (.ldStVx x) s' = .next t' ∧ SameButStale t t' := by
  obtain ⟨k, rfl, hlive⟩ := sameButStale_iff.mp hs
  obtain rfl := Host.Outcome.next.inj h
  exact ⟨_, rfl, .of_unwritten hlive rfl rfl⟩

theorem SameButStale.exec_next (hs : SameButStale s s') (h : exec i s = .next t) :
    ∃ t', exec i s' = .next t' ∧ SameButStale t t' := by
  by_cases hcall : ∃ nnn, i = .call nnn
  · obtain ⟨nnn, rfl⟩ := hcall
    exact hs.exec_call h
  by_cases hret : i = .ret
  · subst hret
    exact hs.exec_ret h
  by_cases hst : ∃ x, i = .ldStVx x
  · obtain ⟨x, rfl⟩ := hst
    exact hs.exec_ldStVx h
  have hcall : ∀ nnn, i ≠ .call nnn := not_exists.mp hcall
  have hst : ∀ x, i ≠ .ldStVx x := not_exists.mp hst
  obtain ⟨k, rfl, hlive⟩ := sameButStale_iff.mp hs
  have e := Effect.of_exec h
  have hover : t.overlay s.st k = t.setStack t.sp k := by rw [← e.st_eq hst]; rfl
  refine ⟨t.setStack t.sp k, ?_, .of_unwritten hlive (e.sp_eq hcall hret) (e.stack_eq hcall)⟩
  rw [← hover]
  exact exec_overlay (b := s.st) (k := k) hcall hret hst h

theorem SameButStale.runInstruction_next (hs : SameButStale s s') (h : s.runInstruction = .next t) :
    ∃ t', s'.runInstruction = .next t' ∧ SameButStale t t' := by
  have hs' := hs
  obtain ⟨k, rfl, hlive⟩ := sameButStale_iff.mp hs'
  have hfetch : (s.setStack s.sp k).fetch = s.fetch := rfl
  unfold State.runInstruction at h ⊢
  rw [hfetch]
  cases hf : s.fetch with
  | error r =>
    rw [hf] at h
    exact ⟨_, rfl, Host.Outcome.next.inj h ▸ .of_unwritten hlive rfl rfl⟩
  | ok w =>
    simp only [hf] at h ⊢
    cases hd : decodeWord w with
    | none =>
      rw [hd] at h
      exact ⟨_, rfl, Host.Outcome.next.inj h ▸ .of_unwritten hlive rfl rfl⟩
    | some i =>
      rw [hd] at h
      exact hs.exec_next h

theorem SameButStale.pollKey (hs : SameButStale s s') : SameButStale s.pollKey s'.pollKey := by
  obtain ⟨k, rfl, hlive⟩ := sameButStale_iff.mp hs
  unfold State.pollKey
  rw [State.setStack_lowestKey]
  cases s.lowestKey with
  | some => exact .of_unwritten hlive rfl rfl
  | none => exact hs

theorem SameButStale.instructionStep_next (hs : SameButStale s s') (h : s.instructionStep = .next t) :
    ∃ t', s'.instructionStep = .next t' ∧ SameButStale t t' := by
  have hmode : s'.mode = s.mode := by rw [hs.1]
  cases hm : s.mode with
  | faulted =>
    rw [State.instructionStep_of_faulted hm] at h
    exact ⟨_, State.instructionStep_of_faulted (hmode.trans hm), Host.Outcome.next.inj h ▸ hs⟩
  | awaitingKey =>
    rw [State.instructionStep_of_awaitingKey hm] at h
    exact ⟨_, State.instructionStep_of_awaitingKey (hmode.trans hm), Host.Outcome.next.inj h ▸ hs.pollKey⟩
  | running =>
    rw [State.instructionStep_of_running hm] at h
    rw [State.instructionStep_of_running (hmode.trans hm)]
    exact hs.runInstruction_next h

/-! The operations of the host read the stack pointer and the stack no more than an instruction does. -/

theorem SameButStale.hostReset (hs : SameButStale s s') : SameButStale s.hostReset s'.hostReset := by
  have henv : s'.env = s.env := by rw [hs.1]
  rw [State.hostReset, State.hostReset, henv]
  exact .refl _

theorem SameButStale.load (hs : SameButStale s s') (bytes : List Byte) : SameButStale (s.load bytes) (s'.load bytes) := by
  obtain ⟨k, rfl, hlive⟩ := sameButStale_iff.mp hs
  unfold State.load
  split <;> exact .of_unwritten hlive rfl rfl

theorem SameButStale.timerTick (hs : SameButStale s s') : SameButStale s.timerTick s'.timerTick := by
  obtain ⟨k, rfl, hlive⟩ := sameButStale_iff.mp hs
  rw [State.timerTick, State.timerTick, State.setStack_st]
  split <;> exact .of_unwritten hlive rfl rfl

theorem SameButStale.setKey (hs : SameButStale s s') (j : Nat) (p : Bool) :
    SameButStale (s.setKey j p) (s'.setKey j p) := by
  obtain ⟨k, rfl, hlive⟩ := sameButStale_iff.mp hs
  unfold State.setKey
  split
  · exact hs
  · split <;> exact .of_unwritten hlive rfl rfl

theorem SameButStale.readFramebuffer (hs : SameButStale s s') :
    SameButStale s.readFramebuffer s'.readFramebuffer := by
  obtain ⟨k, rfl, hlive⟩ := sameButStale_iff.mp hs
  exact .of_unwritten hlive rfl rfl

theorem SameButStale.withSchedule (hs : SameButStale s s') (ops : List HostOp) :
    SameButStale (s.withSchedule ops) (s'.withSchedule ops) := by
  obtain ⟨k, rfl, hlive⟩ := sameButStale_iff.mp hs
  exact .of_unwritten hlive rfl rfl

theorem SameButStale.operate_next (hs : SameButStale s s') {op : HostOp} (h : s.operate op = .next t) :
    ∃ t', s'.operate op = .next t' ∧ SameButStale t t' := by
  cases op with
  | reset => exact ⟨_, rfl, Host.Outcome.next.inj h ▸ hs.hostReset⟩
  | load bytes => exact ⟨_, rfl, Host.Outcome.next.inj h ▸ hs.load bytes⟩
  | step => exact hs.instructionStep_next h
  | timerTick => exact ⟨_, rfl, Host.Outcome.next.inj h ▸ hs.timerTick⟩
  | setKey j p => exact ⟨_, rfl, Host.Outcome.next.inj h ▸ hs.setKey j p⟩
  | readFramebuffer => exact ⟨_, rfl, Host.Outcome.next.inj h ▸ hs.readFramebuffer⟩

/-- Settles O56: both machines have the same operation next, and each operation keeps the relation. -/
theorem staleStackEntriesAreUnobservable : Obligations.StaleStackEntriesAreUnobservable := by
  intro s s' t hs h
  have henv : s'.env = s.env := by rw [hs.1]
  rw [step_eq_operate] at h ⊢
  rw [henv]
  exact (hs.withSchedule _).operate_next h

end Sys2Proof.Claims
end

section
/-! PROOFS. Memory as instructions see it: the canonical form is a normal form (O60), the font region (O52), the fetch (O7) and
the fetch of a stored word (O34). -/

namespace Sys2Proof.Machine

open Sys2Proof.Claims

variable {s t : State} {i : Instr}

/-! ### The canonical form is a normal form (log entry 9) -/

theorem Memory.wfFrom_cons {lo c : Nat} {d : Byte} {m : Memory} :
    Memory.wfFrom lo ((c, d) :: m) = true ↔ lo ≤ c ∧ c ≤ 4095 ∧ d ≠ baseByte c ∧ m.wfFrom (c + 1) = true := by
  simp [Memory.wfFrom, Config.memSize, and_assoc, Nat.lt_succ_iff]

theorem Memory.read_cons_same (c : Nat) (d : Byte) (m : Memory) : Memory.read ((c, d) :: m) c = d :=
  if_pos rfl

theorem Memory.read_cons_other {c a : Nat} (d : Byte) (m : Memory) (h : a ≠ c) :
    Memory.read ((c, d) :: m) a = m.read a :=
  if_neg h

/-- Below its first possible entry a canonical memory lists nothing. -/
theorem Memory.read_of_lt {a : Nat} : ∀ {m : Memory} {lo : Nat}, m.wfFrom lo = true → a < lo → m.read a = baseByte a
  | [], _, _, _ => rfl
  | (c, d) :: m, lo, h, ha => by
    obtain ⟨hlo, _, _, hm⟩ := Memory.wfFrom_cons.mp h
    rw [Memory.read_cons_other d m (by omega)]
    exact Memory.read_of_lt hm (by omega)

/-- An entry shows: a canonical memory that lists only higher addresses reads otherwise there. -/
theorem Memory.read_cons_ne {lo c : Nat} {d : Byte} {m m' : Memory} (h : Memory.wfFrom lo ((c, d) :: m) = true)
    (h' : m'.wfFrom (c + 1) = true) : Memory.read ((c, d) :: m) c ≠ m'.read c := by
  obtain ⟨_, _, hd, _⟩ := Memory.wfFrom_cons.mp h
  rwa [Memory.read_cons_same, Memory.read_of_lt h' (Nat.lt_succ_self c)]

/-- The first entries of two canonical memories that read alike are at the same address, and the rests read alike. -/
theorem Memory.eq_of_read_eq : ∀ {m m' : Memory} {lo lo' : Nat}, m.wfFrom lo = true → m'.wfFrom lo' = true →
    (∀ a, a ≤ 4095 → m.read a = m'.read a) → m = m'
  | [], [], _, _, _, _, _ => rfl
  | [], (c, d) :: m', _, _, _, h', heq => by
    obtain ⟨_, hc, _, _⟩ := Memory.wfFrom_cons.mp h'
    exact absurd (heq c hc).symm (Memory.read_cons_ne h' rfl)
  | (c, d) :: m, [], _, _, h, _, heq => by
    obtain ⟨_, hc, _, _⟩ := Memory.wfFrom_cons.mp h
    exact absurd (heq c hc) (Memory.read_cons_ne h rfl)
  | (c, d) :: m, (c', d') :: m', _, _, h, h', heq => by
    obtain ⟨_, hc, hd, hm⟩ := Memory.wfFrom_cons.mp h
    obtain ⟨_, hc', hd', hm'⟩ := Memory.wfFrom_cons.mp h'
    obtain hlt | rfl | hgt := Nat.lt_trichotomy c c'
    · exact absurd (heq c hc) (Memory.read_cons_ne h (Memory.wfFrom_cons.mpr ⟨hlt, hc', hd', hm'⟩))
    · have hhead : d = d' := by simpa only [Memory.read_cons_same] using heq c hc
      have htail : m = m' := Memory.eq_of_read_eq hm hm' fun a ha => by
        obtain hlt | hge := Nat.lt_or_ge a (c + 1)
        · rw [Memory.read_of_lt hm hlt, Memory.read_of_lt hm' hlt]
        · have hne : a ≠ c := by omega
          simpa only [Memory.read_cons_other _ _ hne] using heq a ha
      rw [hhead, htail]
    · exact absurd (heq c' hc').symm (Memory.read_cons_ne h' (Memory.wfFrom_cons.mpr ⟨hgt, hc, hd, hm⟩))

/-- Settles O60: reading determines the entries, one address after the other. -/
theorem canonicalMemoriesThatReadAlikeAreEqual : Obligations.CanonicalMemoriesThatReadAlikeAreEqual := by
  intro m m' h h' heq
  exact Memory.eq_of_read_eq h h' heq

/-! ### The font region (R62, D3) -/

/-- Only a store writes memory, and it writes none of the font. -/
theorem Effect.read_font (e : Effect s i t) {a : Nat} (ha : a < 80) : t.mem.read a = s.mem.read a := by
  cases e with
  | store base bytes _ writable => exact Memory.read_font_writeAll writable ha
  | random => simp
  | _ => rfl

/-- Settles O52: no effect of an instruction reaches the font. -/
theorem noInstructionWritesTheFont : Obligations.NoInstructionWritesTheFont := by
  intro i s t a h ha
  exact (Effect.of_exec h).read_font ha

/-! ### The fetch (R65, R66) -/

theorem State.fetch_of_le (h : s.pc.toNat ≤ 4094) :
    s.fetch = .ok (wordOfBytes (s.mem.read s.pc.toNat) (s.mem.read (s.pc.toNat + 1))) :=
  if_neg (by omega)

theorem State.fetch_of_gt (h : 4094 < s.pc.toNat) : s.fetch = .error (raise .fetchFault s.pc.toNat) :=
  if_pos (by omega)

theorem State.fetch_of_read {hi lo : Byte} (h : s.pc.toNat ≤ 4094) (hhi : s.mem.read s.pc.toNat = hi)
    (hlo : s.mem.read (s.pc.toNat + 1) = lo) : s.fetch = .ok (wordOfBytes hi lo) := by
  rw [State.fetch_of_le h, hhi, hlo]

/-- Settles O7: the fetched word is two bytes, the high one first. -/
theorem fetchIsBigEndianAndBounded : Obligations.FetchIsBigEndianAndBounded := by
  intro s
  refine ⟨fun h => ⟨_, State.fetch_of_le h, ?_⟩, State.fetch_of_gt⟩
  rw [Laws.wordOfBytes_toNat, Nat.mul_comm]

/-! ### A stored word is fetched (R74, R174, R175) -/

theorem State.storeBytes_of_writable {base : Nat} {bytes : List Byte}
    (hw : ∀ k, k < bytes.length → 80 ≤ base + k ∧ base + k ≤ 4095) :
    s.storeBytes base bytes = .ok (s.setMem (s.mem.writeAll base bytes)) := by
  obtain ⟨_, h⟩ | ⟨k, hk, _, hfail⟩ := s.storeBytes_cases base bytes
  · exact h
  · have := hw k hk
    obtain ⟨hgt, _⟩ | ⟨hlt, _⟩ := hfail <;> omega

@[simp] theorem State.getVs_length (s : State) (x : RegIx) : (s.getVs x).length = x.toNat + 1 := by
  simp [State.getVs]

@[simp] theorem State.getVs_getElem (s : State) (x : RegIx) (k : Nat) (h : k < (s.getVs x).length) :
    (s.getVs x)[k] = s.getV (BitVec.ofNat 4 k) := by
  simp [State.getVs]

theorem exec_ldMemVx_of_writable {x : RegIx} (hw : Writable s (x.toNat + 1)) :
    exec (.ldMemVx x) s = .next (s.advance.setMem (s.mem.writeAll s.i.toNat (s.getVs x))) := by
  have hstore : s.advance.storeBytes (s.effAddr 0) (s.getVs x) = _ :=
    State.storeBytes_of_writable fun k hk => hw k (by simpa using hk)
  rw [exec, execLdMemVx, hstore]
  rfl

/-- The block store puts `V[k]` at `I + k` (R175). -/
theorem read_writeAll_getVs (m : Memory) (base : Nat) {x : RegIx} {k : Nat} (hk : k ≤ x.toNat) :
    (m.writeAll base (s.getVs x)).read (base + k) = s.getV (BitVec.ofNat 4 k) := by
  rw [Memory.read_writeAll_inside _ _ _ _ (by rw [State.getVs_length]; omega), State.getVs_getElem]

/-- Settles O34: the store puts `V[0]` and `V[1]` at the advanced `PC`, where the fetch reads. -/
theorem nextFetchSeesAStore : Obligations.NextFetchSeesAStore := by
  intro x s hx hi hw hpc
  have hadv : (s.pc + 2).toNat ≤ 4094 := by rw [toNat_add_two (by omega)]; omega
  have hx1 : 1 ≤ x.toNat := by bv_omega
  have hexec := exec_ldMemVx_of_writable hw
  rw [hi] at hexec
  refine ⟨_, hexec, State.fetch_of_read hadv ?_ ?_⟩
  · exact read_writeAll_getVs s.mem _ (Nat.zero_le _)
  · exact read_writeAll_getVs s.mem _ hx1

end Sys2Proof.Machine
end

section
/-! PROOFS. The encoding (O1 to O5). One walk through the encoder shows that decoding gives an instruction back; one walk
through the decoder shows that it answers an instruction whose word this is, or refuses a word of the table of R96. The mask and
match table then follows from `OwnRow`, from the rows' masks and from the rows being disjoint. -/

namespace Sys2Proof.Laws

open Sys2Proof.Claims

variable {w : Word} {i : Instr} {r q : OpcodeRow}

/-! ### Decoding an encoded instruction (R91 to R94) -/

theorem decodeWord_encode (i : Instr) : decodeWord (encode i) = some i := by
  cases i with
  | nop | cls | ret => decide
  | jp | call | ldI | jpV0 => simp [encode, decodeWord]
  | seImm | sneImm | ldImm | addImm | rnd => simp [encode, decodeWord]
  | seReg | sneReg | drw => simp [encode, decodeWord]
  | ldReg | or | and | xor | addReg | sub | shr | subn | shl => simp [encode, decodeWord, decode8]
  | skp | sknp => simp [encode, decodeWord, decodeE]
  | ldVxDt | ldVxK | ldDtVx | ldStVx | addI | ldF | ldB | ldMemVx | ldVxMem => simp [encode, decodeWord, decodeF]

/-- Settles O1: the fields read back from a packed word are the operands packed. -/
theorem decodingAnEncodedInstructionGivesItBack : Obligations.DecodingAnEncodedInstructionGivesItBack := by
  intro i
  exact decodeWord_encode i

/-- Settles O5: fixed words, by running the decoder. -/
theorem wordsTheSpecWritesOutDecodeAsItSays : Obligations.WordsTheSpecWritesOutDecodeAsItSays := by
  unfold Obligations.WordsTheSpecWritesOutDecodeAsItSays
  decide

/-! ### What the decoder answers (R93, R96) -/

/-- A right answer of the decoder: an instruction whose word this is, or a refusal of a word that R96 lists. -/
def RightAnswer (w : Word) : Option Instr → Prop
  | some i => encode i = w
  | none => illegalByR96 w

theorem packNNN_of_nibble1 {op : BitVec 4} (h : nibble1 w = op) : packNNN op (fieldNNN w) = w :=
  h ▸ packNNN_fields w

theorem packXNN_of_nibble1 {op : BitVec 4} (h : nibble1 w = op) : packXNN op (fieldX w) (fieldNN w) = w :=
  h ▸ packXNN_fields w

theorem packXNN_of_fields {op : BitVec 4} {k : Byte} (h : nibble1 w = op) (hk : fieldNN w = k) :
    packXNN op (fieldX w) k = w :=
  hk ▸ packXNN_of_nibble1 h

theorem packXYN_of_nibble1 {op : BitVec 4} (h : nibble1 w = op) :
    packXYN op (fieldX w) (fieldY w) (fieldN w) = w :=
  h ▸ packXYN_fields w

theorem packXYN_of_fields {op n : BitVec 4} (h : nibble1 w = op) (hn : fieldN w = n) :
    packXYN op (fieldX w) (fieldY w) n = w :=
  hn ▸ packXYN_of_nibble1 h

theorem decode0_rightAnswer (h : nibble1 w = 0x0) : RightAnswer w (decode0 w) := by
  have hw : w = packNNN 0x0 (fieldNNN w) := (packNNN_of_nibble1 h).symm
  unfold decode0
  split_ifs with h000 h0E0 h0EE
  · rw [hw, h000]; rfl
  · rw [hw, h0E0]; rfl
  · rw [hw, h0EE]; rfl
  · refine .inl ⟨h, ?_, ?_, ?_⟩ <;> rintro rfl
    · exact h000 rfl
    · exact h0E0 rfl
    · exact h0EE rfl

/-- Majors 5 and 9: one row, whose function nibble is 0. -/
theorem decodeXY0_rightAnswer {op : BitVec 4} (c : RegIx → RegIx → Instr)
    (hc : ∀ x y, encode (c x y) = packXYN op x y 0) (h : nibble1 w = op) (hop : fieldN w ≠ 0 → illegalByR96 w) :
    RightAnswer w (if fieldN w = 0 then some (c (fieldX w) (fieldY w)) else none) := by
  split_ifs with hn
  · exact (hc _ _).trans (packXYN_of_fields h hn)
  · exact hop hn

theorem decode8_rightAnswer (h : nibble1 w = 0x8) : RightAnswer w (decode8 w) := by
  unfold decode8
  split
  case h_10 =>
    -- the nibbles no arm names are those R96 lists
    refine .inr (.inr (.inl ⟨h, ?_⟩))
    generalize fieldN w = n at *
    revert n
    decide
  case h_1 hn | h_2 hn | h_3 hn | h_4 hn | h_5 hn | h_6 hn | h_7 hn | h_8 hn | h_9 hn =>
    exact packXYN_of_fields h (BitVec.eq_of_toNat_eq hn)

theorem decodeE_rightAnswer (h : nibble1 w = 0xE) : RightAnswer w (decodeE w) := by
  unfold decodeE
  split_ifs with h9E hA1
  · exact packXNN_of_fields h h9E
  · exact packXNN_of_fields h hA1
  · exact .inr (.inr (.inr (.inr (.inl ⟨h, by simpa using ⟨h9E, hA1⟩⟩))))

theorem decodeF_rightAnswer (h : nibble1 w = 0xF) : RightAnswer w (decodeF w) := by
  unfold decodeF
  split_ifs with h07 h0A h15 h18 h1E h29 h33 h55 h65
  case neg => exact .inr (.inr (.inr (.inr (.inr ⟨h, by simpa using ⟨h07, h0A, h15, h18, h1E, h29, h33, h55, h65⟩⟩))))
  all_goals exact packXNN_of_fields h ‹_›

theorem decodeWord_rightAnswer (w : Word) : RightAnswer w (decodeWord w) := by
  unfold decodeWord
  split
  case h_1 h => exact decode0_rightAnswer (BitVec.eq_of_toNat_eq h)
  case h_6 h =>
    have h5 : nibble1 w = 0x5 := BitVec.eq_of_toNat_eq h
    exact decodeXY0_rightAnswer .seReg (fun _ _ => rfl) h5 fun hn => .inr (.inl ⟨h5, hn⟩)
  case h_9 h => exact decode8_rightAnswer (BitVec.eq_of_toNat_eq h)
  case h_10 h =>
    have h9 : nibble1 w = 0x9 := BitVec.eq_of_toNat_eq h
    exact decodeXY0_rightAnswer .sneReg (fun _ _ => rfl) h9 fun hn => .inr (.inr (.inr (.inl ⟨h9, hn⟩)))
  case h_14 h => exact packXYN_of_nibble1 (BitVec.eq_of_toNat_eq h)
  case h_15 h => exact decodeE_rightAnswer (BitVec.eq_of_toNat_eq h)
  case h_16 h => exact decodeF_rightAnswer (BitVec.eq_of_toNat_eq h)
  case h_17 =>
    exfalso
    generalize nibble1 w = m at *
    revert m
    decide
  case h_2 h | h_3 h | h_11 h | h_12 h => exact packNNN_of_nibble1 (BitVec.eq_of_toNat_eq h)
  case h_4 h | h_5 h | h_7 h | h_8 h | h_13 h => exact packXNN_of_nibble1 (BitVec.eq_of_toNat_eq h)

theorem encode_of_decodeWord (h : decodeWord w = some i) : encode i = w := by
  have hright := decodeWord_rightAnswer w
  rwa [h] at hright

theorem illegal_of_decodeWord (h : decodeWord w = none) : illegalByR96 w := by
  have hright := decodeWord_rightAnswer w
  rwa [h] at hright

/-- Settles O2: the decoder answers only instructions whose word it was given. -/
theorem encodingADecodedWordGivesItBack : Obligations.EncodingADecodedWordGivesItBack := by
  intro w i h
  exact encode_of_decodeWord h

/-! ### The rows of R94 -/

theorem ownRow : ∀ i : Instr, OwnRow.Statement i
  | .nop => OwnRow.nop
  | .cls => OwnRow.cls
  | .ret => OwnRow.ret
  | .jp a => OwnRow.jp a
  | .call a => OwnRow.call a
  | .seImm x k => OwnRow.seImm x k
  | .sneImm x k => OwnRow.sneImm x k
  | .seReg x y => OwnRow.seReg x y
  | .ldImm x k => OwnRow.ldImm x k
  | .addImm x k => OwnRow.addImm x k
  | .ldReg x y => OwnRow.ldReg x y
  | .or x y => OwnRow.or x y
  | .and x y => OwnRow.and x y
  | .xor x y => OwnRow.xor x y
  | .addReg x y => OwnRow.addReg x y
  | .sub x y => OwnRow.sub x y
  | .shr x y => OwnRow.shr x y
  | .subn x y => OwnRow.subn x y
  | .shl x y => OwnRow.shl x y
  | .sneReg x y => OwnRow.sneReg x y
  | .ldI a => OwnRow.ldI a
  | .jpV0 a => OwnRow.jpV0 a
  | .rnd x k => OwnRow.rnd x k
  | .drw x y n => OwnRow.drw x y n
  | .skp x => OwnRow.skp x
  | .sknp x => OwnRow.sknp x
  | .ldVxDt x => OwnRow.ldVxDt x
  | .ldVxK x => OwnRow.ldVxK x
  | .ldDtVx x => OwnRow.ldDtVx x
  | .ldStVx x => OwnRow.ldStVx x
  | .addI x => OwnRow.addI x
  | .ldF x => OwnRow.ldF x
  | .ldB x => OwnRow.ldB x
  | .ldMemVx x => OwnRow.ldMemVx x
  | .ldVxMem x => OwnRow.ldVxMem x

/-- A decoded word matches the row of its instruction. -/
theorem decodeWord_ownRow (h : decodeWord w = some i) :
    ∃ r ∈ opcodeTable, r.row = i.row ∧ w &&& r.mask = r.pattern :=
  encode_of_decodeWord h ▸ ownRow i

theorem opcodeTable_eq_of_row : ∀ r ∈ opcodeTable, ∀ q ∈ opcodeTable, r.row = q.row → r = q := by
  decide

/-- Two rows agree on the bits that both fix only if they are the same row (R95). -/
theorem opcodeTable_disjoint :
    ∀ r ∈ opcodeTable, ∀ q ∈ opcodeTable, r.pattern &&& q.mask = q.pattern &&& r.mask → r = q := by
  decide

theorem eq_of_matches (hr : r ∈ opcodeTable) (hq : q ∈ opcodeTable) (hwr : w &&& r.mask = r.pattern)
    (hwq : w &&& q.mask = q.pattern) : r = q := by
  refine opcodeTable_disjoint r hr q hq ?_
  calc r.pattern &&& q.mask = w &&& r.mask &&& q.mask := by rw [hwr]
    _ = w &&& q.mask &&& r.mask := by rw [BitVec.and_assoc, BitVec.and_comm r.mask, BitVec.and_assoc]
    _ = q.pattern &&& r.mask := by rw [hwq]

/-! ### A word of R96 matches no row

A row's mask covers the fields by which R96 tells the illegal words of the row's major opcode, so an illegal word that
matched a row would make the row's own pattern illegal. -/

theorem nibble1_and (v w : Word) : nibble1 (v &&& w) = nibble1 v &&& nibble1 w := BitVec.extractLsb'_and ..

theorem fieldN_and (v w : Word) : fieldN (v &&& w) = fieldN v &&& fieldN w := BitVec.extractLsb'_and ..

theorem fieldNN_and (v w : Word) : fieldNN (v &&& w) = fieldNN v &&& fieldNN w := BitVec.extractLsb'_and ..

theorem opcodeTable_mask : ∀ r ∈ opcodeTable, nibble1 r.mask = .allOnes 4 ∧
    (nibble1 r.pattern = 0x0 → r.mask = .allOnes 16) ∧
    (nibble1 r.pattern ∈ [0x5#4, 0x8#4, 0x9#4] → fieldN r.mask = .allOnes 4) ∧
    (nibble1 r.pattern ∈ [0xE#4, 0xF#4] → fieldNN r.mask = .allOnes 8) := by
  decide

theorem opcodeTable_legal : ∀ r ∈ opcodeTable, ¬ illegalByR96 r.pattern := by
  unfold illegalByR96
  decide

theorem illegal_pattern_of_matches (hr : r ∈ opcodeTable) (hwr : w &&& r.mask = r.pattern) (hw : illegalByR96 w) :
    illegalByR96 r.pattern := by
  obtain ⟨hmajor, hmask0, hmaskN, hmaskNN⟩ := opcodeTable_mask r hr
  have hmajor : nibble1 w = nibble1 r.pattern := by rw [← hwr, nibble1_and, hmajor, BitVec.and_allOnes]
  have hword (h : nibble1 r.pattern = 0x0) : w = r.pattern := by rw [← hwr, hmask0 h, BitVec.and_allOnes]
  have hN (h : nibble1 r.pattern ∈ [0x5#4, 0x8#4, 0x9#4]) : fieldN w = fieldN r.pattern := by
    rw [← hwr, fieldN_and, hmaskN h, BitVec.and_allOnes]
  have hNN (h : nibble1 r.pattern ∈ [0xE#4, 0xF#4]) : fieldNN w = fieldNN r.pattern := by
    rw [← hwr, fieldNN_and, hmaskNN h, BitVec.and_allOnes]
  unfold illegalByR96 at hw
  rw [hmajor] at hw
  obtain ⟨h0, hne⟩ | ⟨h5, hn⟩ | ⟨h8, hn⟩ | ⟨h9, hn⟩ | ⟨hE, hnn⟩ | ⟨hF, hnn⟩ := hw
  · exact .inl ⟨h0, hword h0 ▸ hne⟩
  · exact .inr (.inl ⟨h5, hN (by simp [h5]) ▸ hn⟩)
  · exact .inr (.inr (.inl ⟨h8, hN (by simp [h8]) ▸ hn⟩))
  · exact .inr (.inr (.inr (.inl ⟨h9, hN (by simp [h9]) ▸ hn⟩)))
  · exact .inr (.inr (.inr (.inr (.inl ⟨hE, hNN (by simp [hE]) ▸ hnn⟩))))
  · exact .inr (.inr (.inr (.inr (.inr ⟨hF, hNN (by simp [hF]) ▸ hnn⟩))))

theorem not_illegal_of_matches (hr : r ∈ opcodeTable) (hwr : w &&& r.mask = r.pattern) : ¬ illegalByR96 w :=
  fun hw => opcodeTable_legal r hr (illegal_pattern_of_matches hr hwr hw)

theorem decodeWord_eq_none_iff : decodeWord w = none ↔ illegalByR96 w := by
  refine ⟨illegal_of_decodeWord, fun hw => ?_⟩
  cases h : decodeWord w with
  | none => rfl
  | some i =>
    obtain ⟨r, hr, _, hwr⟩ := decodeWord_ownRow h
    exact absurd hw (not_illegal_of_matches hr hwr)

/-- Settles O4: the decoder refuses only words of R96, and a word it decodes is of its instruction's row. -/
theorem illegalWordsAreExactlyThoseListed : Obligations.IllegalWordsAreExactlyThoseListed := by
  intro w
  exact decodeWord_eq_none_iff

theorem matches_iff_decodeWord (hr : r ∈ opcodeTable) :
    w &&& r.mask = r.pattern ↔ ∃ i, decodeWord w = some i ∧ i.row = r.row := by
  constructor
  · intro hwr
    obtain ⟨i, hi⟩ := Option.ne_none_iff_exists'.mp (mt illegal_of_decodeWord (not_illegal_of_matches hr hwr))
    obtain ⟨q, hq, hrow, hwq⟩ := decodeWord_ownRow hi
    obtain rfl := eq_of_matches hr hq hwr hwq
    exact ⟨i, hi, hrow.symm⟩
  · rintro ⟨i, hi, hrow⟩
    obtain ⟨q, hq, hrow', hwq⟩ := decodeWord_ownRow hi
    obtain rfl := opcodeTable_eq_of_row q hq r hr (hrow'.trans hrow)
    exact hwq

/-- Settles O3: a word that matches a row is legal, so it decodes to an instruction of a row it matches; rows are disjoint. -/
theorem decodingFollowsTheMaskAndMatchTable : Obligations.DecodingFollowsTheMaskAndMatchTable :=
  ⟨fun _ _ hr => matches_iff_decodeWord hr, fun _ _ hr _ hq => eq_of_matches hr hq⟩

end Sys2Proof.Laws
end

section
/-! PROOFS. Two notions of the statements, tied to the model: the word of an instruction as a number, and the operation `step`
performed with nothing queued or queued first; and the statement O6. -/

namespace Sys2Proof.Machine

variable {s : State} {i : Instr}

/-- Two bytes that decode are an instruction's word, the high byte first. -/
theorem decodeWord_of_decodeBytes {hi lo : Byte} (h : decodeBytes [hi, lo] = .ok (i, [])) :
    decodeWord (wordOfBytes hi lo) = some i := by
  rw [decodeBytes] at h
  split at h
  · cases h
    assumption
  · cases h

/-- A fetched word that decodes is run as its instruction (R120). -/
theorem State.runInstruction_of_decodeWord {w : Word} (hf : s.fetch = .ok w) (hd : decodeWord w = some i) :
    s.runInstruction = exec i s := by
  simp [State.runInstruction, hf, hd]

end Sys2Proof.Machine

namespace Sys2Proof.Claims

open Sys2Proof.Machine

variable {s u : State} {i : Instr}

/-- A number is the word of `i` when the encoder gives it: the decoder then reads `i` back. -/
theorem HasWord.of_toNat {n : Nat} (h : (encode i).toNat = n) : HasWord i n := by
  have hword : encode i = BitVec.ofNat 16 n := by rw [← h, BitVec.ofNat_toNat, BitVec.setWidth_eq]
  exact ⟨hword ▸ Laws.decodeWord_encode i, hword⟩

theorem HasWord.of_packXNN {op x : BitVec 4} {k : Byte} (h : encode i = packXNN op x k) :
    HasWord i (op.toNat * 4096 + 256 * x.toNat + k.toNat) :=
  .of_toNat (by rw [h, Laws.packXNN_toNat, Nat.mul_comm x.toNat])

theorem HasWord.of_packXY0 {op x y : BitVec 4} (h : encode i = packXYN op x y 0) :
    HasWord i (op.toNat * 4096 + 256 * x.toNat + 16 * y.toNat) :=
  .of_toNat (by simp [h, Laws.packXYN_toNat, Nat.mul_comm])

/-- The operation `step` is the instruction step of the state with that operation off the schedule. -/
theorem AtStep.step_eq (h : AtStep s u) : step s = u.instructionStep := by
  obtain ⟨hnone, rfl⟩ | ⟨ops, hqueued, rfl⟩ := h
  · exact step_unscheduled hnone
  · exact step_queued_step hqueued

/-- That state differs from the one before in its schedule alone. -/
theorem AtStep.eq_withSchedule (h : AtStep s u) : ∃ ops, u = s.withSchedule ops := by
  obtain ⟨_, rfl⟩ | ⟨ops, _, rfl⟩ := h
  · exact ⟨u.env.schedule, rfl⟩
  · exact ⟨ops, rfl⟩

/-- Settles O6: the schedule plays no part in the fetch, and the word fetched is the one that decodes to the instruction. -/
theorem stepRunsTheInstructionAtThePc : Obligations.StepRunsTheInstructionAtThePc := by
  intro s u i hat hmode hpc hbytes
  obtain ⟨ops, rfl⟩ := hat.eq_withSchedule
  calc step s = (s.withSchedule ops).instructionStep := hat.step_eq
    _ = (s.withSchedule ops).runInstruction := State.instructionStep_of_running hmode
    _ = exec i (s.withSchedule ops) :=
      State.runInstruction_of_decodeWord (State.fetch_of_le hpc) (decodeWord_of_decodeBytes hbytes)

end Sys2Proof.Claims
end

section
/-! PROOFS. Control flow (spec/40_flow.md): the stack is last in first out (O19), the jumps and `NOP` (O14 to O16), `CALL` and
`RET` (O17, O18), and the skips (O20, O21). -/

namespace Sys2Proof.Machine

open Sys2Proof.Claims

variable {s t u : State} {w : Word}

/-! ### The stack (R121, R122) -/

theorem State.push_of_room (w : Word) (room : s.sp.val < 16) :
    s.push w = .ok (s.setStack ⟨s.sp.val + 1, by omega⟩ (s.stack.set s.sp.val w room)) :=
  dif_pos room

theorem State.push_of_full (w : Word) (full : s.sp.val = 16) : s.push w = .error (raise .stackOverflow 16) := by
  rw [State.push, dif_neg (by omega), full]

theorem State.pop_of_live (live : 0 < s.sp.val) :
    s.pop = .ok (s.stack[s.sp.val - 1]'(by omega), s.setStack ⟨s.sp.val - 1, by omega⟩ s.stack) :=
  dif_neg (Nat.ne_of_gt live)

theorem State.pop_of_empty (empty : s.sp.val = 0) : s.pop = .error (raise .stackUnderflow 0) := by
  rw [State.pop, dif_pos empty, empty]

theorem pushAll_cons_of_push {ws : List Word} (h : s.push w = .ok t) : pushAll s (w :: ws) = pushAll t ws := by
  rw [pushAll, h]
  rfl

theorem popAll_succ_of_pop (n : Nat) (h : s.pop = .ok (w, t)) :
    popAll (n + 1) s = (popAll n t).map fun q => (w :: q.1, q.2) := by
  rw [popAll, h]
  rfl

/-- One `Pop` more after `n` of them: its word comes last. -/
theorem popAll_succ_last {n : Nat} {ws : List Word} (h : popAll n s = .ok (ws, u)) (hpop : u.pop = .ok (w, t)) :
    popAll (n + 1) s = .ok (ws ++ [w], t) := by
  induction n generalizing s ws with
  | zero =>
    cases h
    exact popAll_succ_of_pop 0 hpop
  | succ n ih =>
    cases hfirst : s.pop with
    | error r => simp [popAll, hfirst, Except.bind] at h
    | ok p =>
      rw [popAll_succ_of_pop n hfirst] at h
      cases hrest : popAll n p.2 with
      | error r => simp [hrest, Except.map] at h
      | ok q =>
        rw [hrest] at h
        cases h
        rw [popAll_succ_of_pop (n + 1) hfirst, ih hrest]
        rfl

/-- The entries that `Push` is given lie above the live ones, so the live ones are kept; popping as often gives the words
back in reverse and the old `SP`. -/
theorem popAll_pushAll : ∀ (ws : List Word) (s : State), s.sp.val + ws.length ≤ 16 →
    ∃ t, pushAll s ws = .ok t ∧ popAll ws.length t = .ok (ws.reverse, s.setStack s.sp t.stack) ∧
      ∀ k, (h : k < 16) → k < s.sp.val → t.stack[k]'h = s.stack[k]'h
  | [], s, _ => ⟨s, rfl, rfl, fun _ _ _ => rfl⟩
  | w :: ws, s, hroom => by
    rw [List.length_cons] at hroom
    have room : s.sp.val < 16 := by omega
    obtain ⟨t, hpush, hpop, hkept⟩ := popAll_pushAll ws
      (s.setStack ⟨s.sp.val + 1, by omega⟩ (s.stack.set s.sp.val w room)) (by simp; omega)
    simp only [State.setStack_sp, State.setStack_stack] at hkept
    have htop : t.stack[s.sp.val]'room = w := by simp [hkept s.sp.val room (by omega)]
    refine ⟨t, (pushAll_cons_of_push (State.push_of_room w room)).trans hpush, ?_, fun k hk hlt => ?_⟩
    · rw [List.length_cons, List.reverse_cons]
      exact popAll_succ_last hpop (htop ▸ State.pop_of_live (Nat.succ_pos _))
    · rw [hkept k hk (by omega), Vector.getElem_set_ne _ _ (by omega)]

/-- Settles O19: the equations of `Push` and `Pop`, and by induction on the list pushed that popping undoes it. -/
theorem stackIsLastInFirstOut : Obligations.StackIsLastInFirstOut := by
  refine ⟨fun s w => ⟨fun room => ?_, State.push_of_full w⟩, fun s => ⟨fun live => ?_, State.pop_of_empty⟩,
    fun s ws hroom => ?_⟩
  · exact ⟨_, State.push_of_room w room, rfl, Vector.getElem_set_self room,
      fun k hk hne => Vector.getElem_set_ne room hk hne.symm, rfl⟩
  · exact ⟨_, State.pop_of_live live, Nat.sub_add_cancel live, rfl⟩
  · obtain ⟨t, hpush, hpop, _⟩ := popAll_pushAll ws s hroom
    exact ⟨t, _, hpush, hpop, rfl⟩

/-! ### `NOP` and the jumps (R123, R125, R131) -/

theorem exec_nop : exec .nop s = .next (s.setPc (s.pc + 2)) := rfl

/-- Settles O14: the advance alone; 0000 is the word that encodes `NOP`. -/
theorem nopOnlyAdvances : Obligations.NopOnlyAdvances := by
  refine ⟨fun s => exec_nop, fun w => ⟨fun h => ?_, ?_⟩⟩
  · exact (Laws.encode_of_decodeWord h).symm
  · rintro rfl
    exact Laws.decodeWord_encode .nop

theorem exec_jp (nnn : Imm12) : exec (.jp nnn) s = .next (s.setPc (zextAddr nnn)) := rfl

@[simp] theorem zextAddr_toNat (nnn : Imm12) : (zextAddr nnn).toNat = nnn.toNat := by
  have := nnn.isLt
  simp [zextAddr]
  omega

theorem State.setPc_self (s : State) : s.setPc s.pc = s := rfl

/-- Settles O15: only `PC` is written, so a jump to its own address writes what stands there. -/
theorem jumpGoesToItsTarget : Obligations.JumpGoesToItsTarget := by
  intro nnn
  refine ⟨.of_toNat (Laws.packNNN_toNat 0x1 nnn), fun s => ⟨_, exec_jp nnn, zextAddr_toNat nnn, rfl, fun hself => ?_⟩⟩
  have hpc : zextAddr nnn = s.pc := BitVec.eq_of_toNat_eq ((zextAddr_toNat nnn).trans hself.symm)
  rw [hpc, s.setPc_self]

theorem exec_jpV0 (nnn : Imm12) : exec (.jpV0 nnn) s = .next (s.setPc (zextAddr nnn + zextByte (s.getV 0))) := rfl

@[simp] theorem zextByte_toNat (b : Byte) : (zextByte b).toNat = b.toNat := by
  have := b.isLt
  simp [zextByte]
  omega

/-- The sum of an address and a byte stays far below 65536, so it does not wrap. -/
theorem indexedTarget_toNat (nnn : Imm12) (b : Byte) : (zextAddr nnn + zextByte b).toNat = nnn.toNat + b.toNat := by
  have := nnn.isLt
  have := b.isLt
  rw [BitVec.toNat_add, zextAddr_toNat, zextByte_toNat, Nat.mod_eq_of_lt (by omega)]

/-- Settles O16: the sum of R131 does not wrap. -/
theorem indexedJumpAddsRegisterZero : Obligations.IndexedJumpAddsRegisterZero := by
  intro nnn
  exact ⟨.of_toNat (Laws.packNNN_toNat 0xB nnn), fun s => ⟨_, exec_jpV0 nnn, indexedTarget_toNat nnn (s.getV 0), rfl⟩⟩

/-! ### `CALL` and `RET` (R124, R126) -/

/-- Settles O17: the two equations of `CALL`, one for a stack with room and one for a full stack. -/
theorem callPushesTheReturnAddress : Obligations.CallPushesTheReturnAddress := by
  intro nnn
  refine ⟨.of_toNat (Laws.packNNN_toNat 0x2 nnn), fun s => ⟨fun room => ?_, exec_call_of_full nnn⟩⟩
  exact ⟨_, exec_call_of_room nnn room, zextAddr_toNat nnn, rfl, Vector.getElem_set_self room,
    fun k hk hne => Vector.getElem_set_ne room hk hne.symm, rfl⟩

/-- Settles O18: the two equations of `RET`, one for a live entry and one for an empty stack. -/
theorem returnPopsIntoThePc : Obligations.ReturnPopsIntoThePc := by
  refine ⟨.of_toNat rfl, fun s => ⟨fun live => ?_, exec_ret_of_empty⟩⟩
  exact ⟨_, exec_ret_of_live live, rfl, Nat.sub_add_cancel live, rfl⟩

/-! ### The skips (R127 to R130) -/

/-- The advance and a skip: `PC` by 4 when the condition holds and by 2 otherwise. -/
theorem State.advance_skipIf (s : State) (c : Bool) :
    s.advance.skipIf c = s.setPc (if c then s.pc + 4 else s.pc + 2) := by
  cases c with
  | false => rfl
  | true => exact congrArg s.setPc (BitVec.add_assoc s.pc 2 2)

theorem State.advance_skipIf_beq (s : State) (a b : Byte) :
    s.advance.skipIf (a == b) = s.setPc (if a = b then s.pc + 4 else s.pc + 2) := by
  simp only [State.advance_skipIf, beq_iff_eq]

theorem State.advance_skipIf_bne (s : State) (a b : Byte) :
    s.advance.skipIf (a != b) = s.setPc (if a = b then s.pc + 2 else s.pc + 4) := by
  simp only [State.advance_skipIf, bne_iff_ne, ite_not]

/-- Settles O20: each skip is the advance and a skip on its comparison. -/
theorem immediateSkipsCompareTheRegister : Obligations.ImmediateSkipsCompareTheRegister := by
  intro x nn
  refine ⟨HasWord.of_packXNN (op := 0x3) rfl, HasWord.of_packXNN (op := 0x4) rfl, fun s => ⟨?_, ?_⟩⟩
  · exact congrArg Host.Outcome.next (s.advance_skipIf_beq (s.getV x) nn)
  · exact congrArg Host.Outcome.next (s.advance_skipIf_bne (s.getV x) nn)

/-- Majors 5 and 9 have no row with a function nibble other than 0 (R96). -/
theorem decodeWord_packXYN_ne_zero (x y : RegIx) {n : BitVec 4} (hn : n ≠ 0) :
    decodeWord (packXYN 0x5 x y n) = none ∧ decodeWord (packXYN 0x9 x y n) = none := by
  constructor
  · exact Laws.decodeWord_eq_none_iff.mpr (.inr (.inl ⟨by simp, by simpa using hn⟩))
  · exact Laws.decodeWord_eq_none_iff.mpr (.inr (.inr (.inr (.inl ⟨by simp, by simpa using hn⟩))))

/-- Settles O21: as O20, with the second register's byte for the immediate. -/
theorem registerSkipsCompareTwoRegisters : Obligations.RegisterSkipsCompareTwoRegisters := by
  intro x y
  refine ⟨HasWord.of_packXY0 (op := 0x5) rfl, HasWord.of_packXY0 (op := 0x9) rfl,
    fun n hn => decodeWord_packXYN_ne_zero x y hn, fun s => ⟨?_, ?_⟩⟩
  · exact congrArg Host.Outcome.next (s.advance_skipIf_beq (s.getV x) (s.getV y))
  · exact congrArg Host.Outcome.next (s.advance_skipIf_bne (s.getV x) (s.getV y))

end Sys2Proof.Machine
end

section
/-! PROOFS. Registers and arithmetic (spec/41_alu.md): one register written (O22, O23), a result and then the flag (O24), the
flag and then a shift (O25), and the random byte (O26). -/

namespace Sys2Proof.Machine

open Sys2Proof.Claims

variable {s t : State} {i : Instr} {x y r : RegIx}

/-! ### One register written (R142 to R147) -/

theorem State.getV_advance_setV_other (s : State) (b : Byte) (h : r ≠ x) : (s.advance.setV x b).getV r = s.getV r :=
  s.advance.getV_setV_other b h

/-- Settles O22: each of the three is the advance and one register write. -/
theorem loadsAndImmediateAddWriteOneRegister : Obligations.LoadsAndImmediateAddWriteOneRegister := by
  intro x y nn
  refine ⟨HasWord.of_packXNN (op := 0x6) rfl, HasWord.of_packXNN (op := 0x7) rfl, HasWord.of_packXY0 (op := 0x8) rfl,
    fun s => ⟨?_, ?_, ?_⟩⟩
  · exact ⟨_, rfl, rfl, State.getV_setV_same .., fun r => s.getV_advance_setV_other _⟩
  · refine ⟨_, rfl, rfl, ?_, fun r => s.getV_advance_setV_other _⟩
    rw [State.getV_setV_same, BitVec.toNat_add]
  · exact ⟨_, rfl, rfl, State.getV_setV_same .., fun r => s.getV_advance_setV_other _⟩

/-- Settles O23: each of the three is the advance and one register write, of a byte the library gives bit by bit. -/
theorem logicalInstructionsWriteOnlyTheirDestination : Obligations.LogicalInstructionsWriteOnlyTheirDestination := by
  intro x y s
  refine ⟨⟨_, rfl, rfl, fun r => s.getV_advance_setV_other _, fun k => ?_⟩,
    ⟨_, rfl, rfl, fun r => s.getV_advance_setV_other _, fun k => ?_⟩,
    ⟨_, rfl, rfl, fun r => s.getV_advance_setV_other _, fun k => ?_⟩⟩
  · rw [State.getV_setV_same, BitVec.getLsbD_or]
  · rw [State.getV_setV_same, BitVec.getLsbD_and]
  · rw [State.getV_setV_same, BitVec.getLsbD_xor]

/-! ### A flag beside the result (R140, R141) -/

theorem flagByte_decide (p : Prop) [Decidable p] : flagByte (decide p) = if p then 1 else 0 := by
  simp [flagByte]

@[simp] theorem flagByte_toNat (f : Bool) : (flagByte f).toNat = f.toNat := by
  cases f <;> rfl

theorem State.getV_advance_setV_setV_other (s : State) (b c : Byte) (hx : r ≠ x) (hy : r ≠ y) :
    ((s.advance.setV x b).setV y c).getV r = s.getV r :=
  (State.getV_setV_other _ c hy).trans (s.getV_advance_setV_other b hx)

/-- An instruction that writes its result and then the flag: the flag survives where both go to `V[15]` (R141). -/
theorem exists_of_result_then_flag {b : Byte} {n : Nat} {p : Prop} [Decidable p]
    (h : exec i s = .next ((s.advance.setV x b).setFlag (decide p))) (hb : b.toNat = n) :
    ∃ t, exec i s = .next t ∧ t = { s with v := t.v, pc := s.pc + 2 } ∧ (x ≠ 15 → (t.getV x).toNat = n) ∧
      t.getV 15 = (if p then 1 else 0) ∧ ∀ r, r ≠ x → r ≠ 15 → t.getV r = s.getV r := by
  refine ⟨_, h, rfl, fun hx => ?_, ?_, fun r => s.getV_advance_setV_setV_other _ _⟩
  · rw [State.setFlag_eq, State.getV_setV_other _ _ hx, State.getV_setV_same, hb]
  · rw [State.setFlag_eq, State.getV_setV_same, flagByte_decide]

theorem byte_sub_toNat (a b : Byte) : (a - b).toNat = (a.toNat + 256 - b.toNat) % 256 := by
  have := b.isLt
  rw [BitVec.toNat_sub]
  omega

/-- Settles O24: each of the three writes its result and then a flag that is a comparison of the old operands. -/
theorem addAndSubtractSetTheFlagLast : Obligations.AddAndSubtractSetTheFlagLast := by
  intro x y s
  refine ⟨?_, ?_, ?_⟩
  · exact exists_of_result_then_flag rfl (BitVec.toNat_add ..)
  · exact exists_of_result_then_flag rfl (byte_sub_toNat ..)
  · exact exists_of_result_then_flag rfl (byte_sub_toNat ..)

/-! ### The shifts (R150, R152) -/

theorem byte_shiftRight_one_toNat (a : Byte) : (a >>> 1).toNat = a.toNat / 2 := by
  rw [BitVec.toNat_ushiftRight, Nat.shiftRight_one]

theorem flagByte_shiftRight_one (f : Bool) : flagByte f >>> 1 = 0 := by
  cases f <;> rfl

theorem byte_shiftLeft_one_toNat (a : Byte) : (a <<< 1).toNat = 2 * a.toNat % 256 := by
  rw [BitVec.toNat_shiftLeft, Nat.shiftLeft_eq, Nat.mul_comm]

theorem shrFlag_toNat (a : Byte) : (shrFlag a).toNat = a.toNat % 2 := by
  rw [shrFlag, BitVec.getLsbD, Nat.toNat_testBit, Nat.pow_zero, Nat.div_one]

theorem shlFlag_toNat (a : Byte) : (shlFlag a).toNat = a.toNat / 128 := by
  have := a.isLt
  rw [shlFlag, BitVec.getLsbD, Nat.toNat_testBit]
  omega

/-- An instruction that writes the flag and then shifts in place: with `x = 15` it is the flag that is shifted (R141). -/
theorem exists_of_flag_then_shift {f : Bool} {shift : Byte → Byte}
    (h : exec i s = .next ((s.advance.setFlag f).setV x (shift ((s.advance.setFlag f).getV x)))) :
    ∃ t, exec i s = .next t ∧ t = { s with v := t.v, pc := s.pc + 2 } ∧
      (x ≠ 15 → t.getV x = shift (s.getV x) ∧ t.getV 15 = flagByte f) ∧ (x = 15 → t.getV 15 = shift (flagByte f)) ∧
      ∀ r, r ≠ x → r ≠ 15 → t.getV r = s.getV r := by
  refine ⟨_, h, rfl, fun hx => ⟨?_, ?_⟩, ?_, fun r hx hflag => s.getV_advance_setV_setV_other _ _ hflag hx⟩
  · rw [State.getV_setV_same, State.setFlag_eq, s.getV_advance_setV_other _ hx]
  · rw [State.getV_setV_other _ _ hx.symm, State.setFlag_eq, State.getV_setV_same]
  · rintro rfl
    rw [State.getV_setV_same, State.setFlag_eq, State.getV_setV_same]

/-- Settles O25: both write the bit shifted out and then shift; a flag shifted right is 0, and shifted left its double. -/
theorem shiftsPutTheBitShiftedOutInTheFlag : Obligations.ShiftsPutTheBitShiftedOutInTheFlag := by
  intro x y s
  constructor
  · obtain ⟨t, ht, hframe, hres, hflag, hrest⟩ :=
      exists_of_flag_then_shift (i := .shr x y) (s := s) (f := shrFlag (s.getV x)) (shift := (· >>> 1)) rfl
    refine ⟨t, ht, hframe, fun hx => ?_, fun hx => ?_, hrest⟩
    · obtain ⟨hvx, hvf⟩ := hres hx
      rw [hvx, hvf, byte_shiftRight_one_toNat, flagByte_toNat, shrFlag_toNat]
      exact ⟨rfl, rfl⟩
    · rw [hflag hx, flagByte_shiftRight_one]
  · obtain ⟨t, ht, hframe, hres, hflag, hrest⟩ :=
      exists_of_flag_then_shift (i := .shl x y) (s := s) (f := shlFlag (s.getV x)) (shift := (· <<< 1)) rfl
    refine ⟨t, ht, hframe, fun hx => ?_, fun hx => ?_, hrest⟩
    · obtain ⟨hvx, hvf⟩ := hres hx
      rw [hvx, hvf, byte_shiftLeft_one_toNat, flagByte_toNat, shlFlag_toNat]
      exact ⟨rfl, rfl⟩
    · have := (s.getV 15).isLt
      rw [hflag hx, hx, byte_shiftLeft_one_toNat, flagByte_toNat, shlFlag_toNat]
      omega

/-! ### The random byte (R153, R245) -/

/-- With no byte queued the draw is a free value, and is counted. -/
theorem State.drawRand_unqueued (s : State) (h : s.env.draws = []) :
    s.drawRand = (Config.freeDraw s.env.drawCount, s.setEnv { s.env with drawCount := s.env.drawCount + 1 }) := by
  simp [State.drawRand, h]

/-- `RND` writes the byte drawn, masked, over the state the draw leaves. -/
theorem exec_rnd_of_draw {b : Byte} {u : State} (nn : Byte) (h : s.advance.drawRand = (b, u)) :
    exec (.rnd x nn) s = .next (u.setV x (b &&& nn)) := by
  rw [exec, execRnd, h]

/-- Only a random load touches the environment. -/
theorem Effect.env_eq_of_ne_rnd (e : Effect s i t) (hrnd : ∀ x nn, i ≠ .rnd x nn) : t.env = s.env := by
  cases e with
  | random x nn => exact absurd rfl (hrnd x nn)
  | _ => rfl

/-- Settles O26: the two cases of a draw under `RND`, and the environment as every other instruction leaves it. -/
theorem randomLoadMasksOneDraw : Obligations.RandomLoadMasksOneDraw := by
  refine ⟨fun x nn => ⟨HasWord.of_packXNN (op := 0xC) rfl, fun s => ⟨fun b bs hqueue => ?_, fun hempty => ?_⟩⟩,
    fun i s t hrnd hexec => ?_⟩
  · exact ⟨_, exec_rnd_of_draw nn (s.advance.drawRand_queued b bs hqueue), State.getV_setV_same ..,
      fun r => State.getV_setV_other _ _, rfl⟩
  · exact ⟨_, _, exec_rnd_of_draw nn (s.advance.drawRand_unqueued hempty), State.getV_setV_same ..,
      fun r => State.getV_setV_other _ _, rfl⟩
  · rw [(Effect.of_exec hexec).env_eq_of_ne_rnd hrnd]
    exact ⟨rfl, rfl⟩

end Sys2Proof.Machine
end

section
/-! PROOFS. Index register and memory (spec/42_index_memory.md): the faults of the block stores and the block reads (O32, O33),
the index register (O27, O28), and the stores and the load that do not fault (O29 to O31). -/

namespace Sys2Proof.Machine

open Sys2Proof.Claims

variable {s : State} {i : Instr} {x : RegIx} {base k n : Nat} {bytes : List Byte}

/-! ### The first address that fails a check (R174) -/

/-- A known first failing address decides the fault. -/
theorem firstFailing_of_first {check : Nat → Option Raise} {r : Raise} (hk : k < n)
    (hfail : check (base + k) = some r) (hbelow : ∀ j, j < k → check (base + j) = none) :
    firstFailing check base n = some r := by
  cases hf : firstFailing check base n with
  | none => simp [firstFailing_eq_none.mp hf k hk] at hfail
  | some q =>
    obtain ⟨k', _, hfail', hbelow'⟩ := firstFailing_eq_some hf
    obtain hlt | rfl | hgt := Nat.lt_trichotomy k k'
    · simp [hbelow' k hlt] at hfail
    · exact hfail'.symm.trans hfail
    · simp [hbelow k' hgt] at hfail'

theorem writeCheck_of_gt {a : Nat} (h : 4095 < a) : writeCheck a = some (raise .memWriteFault a) :=
  if_pos h

theorem writeCheck_of_lt {a : Nat} (h : a < 80) : writeCheck a = some (raise .fontWriteFault a) := by
  rw [writeCheck, if_neg (by omega), if_pos h]

/-! ### Stores that fault (R173 to R175) -/

theorem State.storeBytes_of_first_unwritable {r : Raise} (hk : k < bytes.length)
    (hbelow : ∀ j, j < k → 80 ≤ base + j ∧ base + j ≤ 4095) (hfail : writeCheck (base + k) = some r) :
    s.storeBytes base bytes = .error r := by
  have hfirst : firstFailing writeCheck base bytes.length = some r :=
    firstFailing_of_first hk hfail fun j hj => writeCheck_eq_none.mpr (hbelow j hj)
  rw [State.storeBytes, hfirst]

/-- An instruction that stores a block at `I` takes the fault of the first address that cannot be written. -/
theorem takesFault_of_first_unwritable {c : Cause} {info : Nat}
    (hexec : exec i s = finish i s (s.advance.storeBytes (s.effAddr 0) bytes)) (hk : k < bytes.length)
    (hbelow : ∀ j, j < k → 80 ≤ s.effAddr j ∧ s.effAddr j ≤ 4095)
    (hfail : writeCheck (s.effAddr k) = some (raise c info)) : TakesFault i s c info := by
  have hstore : s.advance.storeBytes (s.effAddr 0) bytes = .error (raise c info) :=
    State.storeBytes_of_first_unwritable hk hbelow hfail
  rw [TakesFault, hexec, hstore]
  rfl

theorem decimalDigits_length (b : Byte) : (decimalDigits b).length = 3 := rfl

/-- The two storing instructions, each where the address lies in its block. -/
theorem stores_takeFault_of_first_unwritable {c : Cause} {info : Nat}
    (hbelow : ∀ j, j < k → 80 ≤ s.effAddr j ∧ s.effAddr j ≤ 4095)
    (hfail : writeCheck (s.effAddr k) = some (raise c info)) :
    (k < 3 → TakesFault (.ldB x) s c info) ∧ (k ≤ x.toNat → TakesFault (.ldMemVx x) s c info) := by
  constructor
  · intro hk
    exact takesFault_of_first_unwritable rfl ((decimalDigits_length _).symm ▸ hk) hbelow hfail
  · intro hk
    exact takesFault_of_first_unwritable rfl ((s.getVs_length x).symm ▸ Nat.lt_succ_of_le hk) hbelow hfail

/-- Settles O32: above 4095 and below 80 the check raises one fault each, and the first address that fails decides. -/
theorem storesOutsideWritableMemoryFault : Obligations.StoresOutsideWritableMemoryFault := by
  intro x s k hbelow
  exact ⟨fun h => stores_takeFault_of_first_unwritable hbelow (writeCheck_of_gt h),
    fun h => stores_takeFault_of_first_unwritable hbelow (writeCheck_of_lt h)⟩

/-! ### Reads that fault (R174, R176, R192) -/

/-- The lowest address of a block that lies past memory is its base or 4096, whichever is higher. -/
theorem State.loadBytes_of_past (hn : 0 < n) (hpast : 4095 < base + (n - 1)) :
    s.loadBytes base n = .error (raise .memReadFault (max base 4096)) := by
  obtain ⟨hin, _⟩ | ⟨k, _, hk, hbelow, hload⟩ := s.loadBytes_cases base n
  · have := hin (n - 1) (by omega)
    omega
  · have hfirst : base + k = max base 4096 := by
      cases k with
      | zero => omega
      | succ j =>
        have := hbelow j (Nat.lt_succ_self j)
        omega
    rw [hload, hfirst]

/-- An instruction that reads a block at `I` takes the read fault when the block's last address lies past memory. -/
theorem takesFault_of_read_past {f : List Byte → State}
    (hexec : exec i s = finish i s ((s.loadBytes (s.effAddr 0) n).map f)) (hn : 0 < n)
    (hpast : 4095 < s.effAddr (n - 1)) : TakesFault i s .memReadFault (max s.i.toNat 4096) := by
  have hload : s.loadBytes (s.effAddr 0) n = .error (raise .memReadFault (max s.i.toNat 4096)) :=
    State.loadBytes_of_past hn hpast
  rw [TakesFault, hexec, hload]
  rfl

/-- Settles O33: `LD Vx, [I]` reads `x + 1` bytes at `I`, and `DRW` reads `n`. -/
theorem readsPastMemoryFault : Obligations.ReadsPastMemoryFault := by
  intro x y s
  refine ⟨fun hpast => takesFault_of_read_past rfl (Nat.succ_pos _) hpast, fun n hn hpast => ?_⟩
  have hpos : 0 < n.toNat := by bv_omega
  exact takesFault_of_read_past rfl hpos hpast

/-! ### The index register (R170 to R172) -/

/-- Settles O27: the immediate, zero-extended, is written to `I`. -/
theorem loadIndexTakesTheImmediate : Obligations.LoadIndexTakesTheImmediate := by
  intro nnn
  exact ⟨.of_toNat (Laws.packNNN_toNat 0xA nnn), fun s => ⟨_, rfl, zextAddr_toNat nnn, rfl⟩⟩

theorem index_add_zextByte_toNat (w : Word) (b : Byte) : (w + zextByte b).toNat = (w.toNat + b.toNat) % 65536 := by
  rw [BitVec.toNat_add, zextByte_toNat]

/-- Five times a byte stays far below 65536, so the product does not wrap. -/
theorem glyphAddress_toNat (b : Byte) : (zextByte b * BitVec.ofNat 16 Config.glyphBytes).toNat = 5 * b.toNat := by
  have := b.isLt
  have hfive : (BitVec.ofNat 16 Config.glyphBytes).toNat = 5 := rfl
  rw [BitVec.toNat_mul, zextByte_toNat, hfive]
  omega

/-- Settles O28: each writes `I` alone, with a sum that wraps and with a product that does not. -/
theorem indexArithmeticIsUnmasked : Obligations.IndexArithmeticIsUnmasked := by
  intro x s
  exact ⟨⟨_, rfl, index_add_zextByte_toNat s.i (s.getV x), rfl⟩, ⟨_, rfl, glyphAddress_toNat (s.getV x), rfl⟩⟩

/-! ### Stores inside writable memory (R173, R175) -/

theorem exec_ldB_of_writable (hw : Writable s 3) :
    exec (.ldB x) s = .next (s.advance.setMem (s.mem.writeAll s.i.toNat (decimalDigits (s.getV x)))) := by
  have hstore : s.advance.storeBytes (s.effAddr 0) (decimalDigits (s.getV x)) = _ :=
    State.storeBytes_of_writable hw
  rw [exec, execLdB, hstore]
  rfl

/-- The decimal store puts a digit, as a number, at its place in the block. -/
theorem read_writeAll_digit_toNat (m : Memory) (base : Nat) {b : Byte} {d : Nat}
    (hdigit : (decimalDigits b)[k]? = some (BitVec.ofNat 8 d)) (hd : d < 256) :
    ((m.writeAll base (decimalDigits b)).read (base + k)).toNat = d := by
  obtain ⟨hk, hdigit⟩ := List.getElem?_eq_some_iff.mp hdigit
  rw [Memory.read_writeAll_inside _ m base k hk, hdigit, BitVec.toNat_ofNat, Nat.mod_eq_of_lt hd]

/-- Settles O29: the three digits are written at `I` up, and a block write changes its own addresses alone. -/
theorem decimalStoreWritesThreeDigits : Obligations.DecimalStoreWritesThreeDigits := by
  intro x s hw
  have := (s.getV x).isLt
  refine ⟨_, exec_ldB_of_writable hw, rfl, ?_, ?_, ?_, fun a ha => Memory.read_writeAll_outside _ s.mem _ a ha⟩
  · exact read_writeAll_digit_toNat s.mem _ rfl (by omega)
  · exact read_writeAll_digit_toNat s.mem _ rfl (by omega)
  · exact read_writeAll_digit_toNat s.mem _ rfl (by omega)

/-- Settles O30: the registers are written at `I` up, and a block write changes its own addresses alone. -/
theorem registerStoreWritesTheBlock : Obligations.RegisterStoreWritesTheBlock := by
  intro x s hw
  refine ⟨_, exec_ldMemVx_of_writable hw, rfl, fun r hr => ?_, fun a ha => ?_⟩
  · exact (read_writeAll_getVs s.mem _ hr).trans (by rw [BitVec.ofNat_toNat, BitVec.setWidth_eq])
  · exact Memory.read_writeAll_outside _ s.mem _ a (by rwa [State.getVs_length])

/-! ### The block load (R176) -/

/-- The `n` bytes of memory from `I` up. -/
def State.blockAt (s : State) (n : Nat) : List Byte := (List.range n).map fun k => s.mem.read (s.effAddr k)

@[simp] theorem State.blockAt_length (s : State) (n : Nat) : (s.blockAt n).length = n := by
  simp [State.blockAt]

theorem State.blockAt_getD (s : State) (b : Byte) (hk : k < n) : (s.blockAt n).getD k b = s.mem.read (s.effAddr k) := by
  simp [State.blockAt, hk]

theorem State.loadBytes_of_readable (hr : Readable s n) : s.loadBytes (s.effAddr 0) n = .ok (s.blockAt n) := by
  obtain ⟨_, hload⟩ | ⟨k, hk, hpast, _⟩ := s.loadBytes_cases (s.effAddr 0) n
  · exact hload
  · exact absurd (hr k hk) (Nat.not_le_of_gt hpast)

theorem exec_ldVxMem_of_readable (hr : Readable s (x.toNat + 1)) :
    exec (.ldVxMem x) s = .next (s.advance.setVs 0 (s.blockAt (x.toNat + 1))) := by
  rw [exec, execLdVxMem, State.loadBytes_of_readable hr]
  rfl

/-- Writing bytes from `V[0]` up gives each register within them its byte, and every other its old value. -/
theorem State.getV_setVs_zero (s : State) (bs : List Byte) (hbs : bs.length ≤ 16) (r : RegIx) :
    (s.setVs 0 bs).getV r = bs.getD r.toNat (s.getV r) := by
  rw [State.getV_setVs bs s 0 r (by omega), if_pos (Nat.zero_le _), Nat.sub_zero]

/-- Settles O31: the block read goes to `V[0]` to `V[x]`, and nothing else is written. -/
theorem registerLoadReadsTheBlock : Obligations.RegisterLoadReadsTheBlock := by
  intro x s hread
  have hlen : (s.blockAt (x.toNat + 1)).length ≤ 16 := by
    have := x.isLt
    rw [State.blockAt_length]; omega
  refine ⟨_, exec_ldVxMem_of_readable hread, State.setVs_eq _ s.advance 0, fun r hr => ?_, fun r hr => ?_⟩
  · rw [State.getV_setVs_zero _ _ hlen, State.blockAt_getD s _ (Nat.lt_succ_of_le hr)]
  · rw [State.getV_setVs_zero _ _ hlen, List.getD_eq_default _ _ (by rw [State.blockAt_length]; omega)]
    rfl

end Sys2Proof.Machine
end

section
/-! PROOFS. Display instructions (spec/43_display.md): what toggling a list of distinct cells does, the cells that `DRW` toggles,
and the statements about `CLS` (O35), one draw (O36) and a draw repeated (O37). -/

namespace Sys2Proof.Machine

open Sys2Proof.Claims

variable {s t : State} {x y : RegIx} {n : BitVec 4}

/-! ### Cells (R190) -/

/-- A framebuffer is its cells. -/
theorem State.fb_eq_of_cell_eq (h : ∀ cx cy, s.cell cx cy = t.cell cx cy) : s.fb = t.fb := by
  refine Vector.ext fun cy hcy => BitVec.eq_of_getLsbD_eq fun cx hcx => ?_
  exact h ⟨cx, hcx⟩ ⟨cy, hcy⟩

/-- A toggle inverts its own cell and no other. -/
theorem Canvas.toggle_cell (c : Canvas) (p q : Fin 64 × Fin 32) :
    fbCell (c.toggle p.1 p.2).fb q.1 q.2 = (fbCell c.fb q.1 q.2 ^^ decide (q = p)) := by
  obtain ⟨px, py⟩ := p
  obtain ⟨qx, qy⟩ := q
  by_cases hrow : qy = py
  · subst hrow
    simp [Canvas.toggle, fbCell, Fin.ext_iff, eq_comm]
  · have hne : py.val ≠ qy.val := fun h => hrow (Fin.ext h.symm)
    simp [Canvas.toggle, fbCell, Vector.getElem_set_ne, hne, hrow]

/-! ### Toggling a list of cells -/

/-- The cells of a list toggled in order. -/
def Canvas.toggleAll (c : Canvas) (ps : List (Fin 64 × Fin 32)) : Canvas := ps.foldl (fun c p => c.toggle p.1 p.2) c

theorem Canvas.toggleAll_cons (c : Canvas) (p : Fin 64 × Fin 32) (ps : List (Fin 64 × Fin 32)) :
    c.toggleAll (p :: ps) = (c.toggle p.1 p.2).toggleAll ps := rfl

/-- Distinct cells are each toggled once: exactly those of the list are inverted. -/
theorem Canvas.toggleAll_cell {ps : List (Fin 64 × Fin 32)} (hps : ps.Nodup) (c : Canvas) (q : Fin 64 × Fin 32) :
    fbCell (c.toggleAll ps).fb q.1 q.2 = (fbCell c.fb q.1 q.2 ^^ decide (q ∈ ps)) := by
  induction ps generalizing c with
  | nil => simp [Canvas.toggleAll]
  | cons p ps ih =>
    obtain ⟨hp, hps⟩ := List.nodup_cons.mp hps
    rw [Canvas.toggleAll_cons, ih hps, Canvas.toggle_cell]
    by_cases hq : q = p
    · simp [hq, hp]
    · simp [hq]

/-- Distinct cells: the flag compares each with its value before the first toggle. -/
theorem Canvas.toggleAll_hit {ps : List (Fin 64 × Fin 32)} (hps : ps.Nodup) (c : Canvas) :
    (c.toggleAll ps).hit = true ↔ c.hit = true ∨ ∃ p ∈ ps, fbCell c.fb p.1 p.2 = true := by
  induction ps generalizing c with
  | nil => simp [Canvas.toggleAll]
  | cons p ps ih =>
    obtain ⟨hp, hps⟩ := List.nodup_cons.mp hps
    have hrest : ∀ q ∈ ps, fbCell (c.toggle p.1 p.2).fb q.1 q.2 = fbCell c.fb q.1 q.2 := fun q hq => by
      rw [Canvas.toggle_cell, decide_eq_false (ne_of_mem_of_not_mem hq hp), Bool.xor_false]
    rw [Canvas.toggleAll_cons, ih hps, List.exists_mem_cons_iff, ← or_assoc]
    refine or_congr (Bool.or_eq_true_iff ..) (exists_congr fun q => and_congr_right fun hq => ?_)
    rw [hrest q hq]

/-! ### The cells a sprite toggles (R192) -/

/-- The cells on which the 1 bits of one sprite row land, in the order drawn. -/
def rowPixels (xo yo row : Nat) (b : Byte) : List (Fin 64 × Fin 32) :=
  ((List.range 8).filter fun col => b.getLsbD (7 - col)).map fun col => (pixelColumn xo col, pixelRow yo row)

/-- The cells on which the 1 bits of a sprite land, its first row numbered `row`. -/
def spritePixels (xo yo : Nat) : Nat → List Byte → List (Fin 64 × Fin 32)
  | _, [] => []
  | row, b :: bs => rowPixels xo yo row b ++ spritePixels xo yo (row + 1) bs

theorem Canvas.drawRow_eq_toggleAll (xo yo row : Nat) (b : Byte) (c : Canvas) :
    c.drawRow xo yo row b = c.toggleAll (rowPixels xo yo row b) := by
  rw [Canvas.toggleAll, rowPixels, List.foldl_map, List.foldl_filter]
  rfl

theorem Canvas.drawRows_eq_toggleAll (xo yo row : Nat) (bs : List Byte) (c : Canvas) :
    c.drawRows xo yo row bs = c.toggleAll (spritePixels xo yo row bs) := by
  induction bs generalizing row c with
  | nil => rfl
  | cons b bs ih =>
    rw [Canvas.drawRows, ih, Canvas.drawRow_eq_toggleAll]
    exact List.foldl_append.symm

theorem mem_rowPixels {xo yo row : Nat} {b : Byte} {p : Fin 64 × Fin 32} :
    p ∈ rowPixels xo yo row b ↔
      ∃ col, col < 8 ∧ b.getLsbD (7 - col) = true ∧ (pixelColumn xo col, pixelRow yo row) = p := by
  simp [rowPixels, and_assoc]

theorem mem_spritePixels {xo yo row : Nat} {bs : List Byte} {p : Fin 64 × Fin 32} :
    p ∈ spritePixels xo yo row bs ↔ ∃ k, ∃ h : k < bs.length, p ∈ rowPixels xo yo (row + k) bs[k] := by
  induction bs generalizing row with
  | nil => simp [spritePixels]
  | cons b bs ih =>
    rw [spritePixels, List.mem_append, ih]
    constructor
    · rintro (h | ⟨k, hk, h⟩)
      · exact ⟨0, Nat.succ_pos _, h⟩
      · exact ⟨k + 1, Nat.succ_lt_succ hk, by rwa [← Nat.succ_add_eq_add_succ]⟩
    · rintro ⟨k, hk, h⟩
      cases k with
      | zero => exact .inl h
      | succ k => exact .inr ⟨k, Nat.lt_of_succ_lt_succ hk, by rwa [Nat.succ_add_eq_add_succ]⟩

/-- The 8 columns of a row are distinct modulo 64. -/
theorem nodup_rowPixels (xo yo row : Nat) (b : Byte) : (rowPixels xo yo row b).Nodup := by
  refine List.Nodup.map_on (fun i hi j hj hij => ?_) (List.nodup_range.filter _)
  have hcol : (xo + i) % 64 = (xo + j) % 64 := congrArg (fun p => p.1.val) hij
  have hi8 := List.mem_range.mp (List.mem_of_mem_filter hi)
  have hj8 := List.mem_range.mp (List.mem_of_mem_filter hj)
  omega

/-- Up to 32 rows are distinct modulo 32, so no cell of a sprite is toggled twice. -/
theorem nodup_spritePixels (xo yo row : Nat) {bs : List Byte} (hbs : bs.length ≤ 32) :
    (spritePixels xo yo row bs).Nodup := by
  induction bs generalizing row with
  | nil => exact List.nodup_nil
  | cons b bs ih =>
    rw [List.length_cons] at hbs
    refine (nodup_rowPixels xo yo row b).append (ih (row + 1) (by omega)) fun p hp hp' => ?_
    obtain ⟨_, _, _, rfl⟩ := mem_rowPixels.mp hp
    obtain ⟨k, hk, hlater⟩ := mem_spritePixels.mp hp'
    obtain ⟨_, _, _, hcell⟩ := mem_rowPixels.mp hlater
    have hrow : (yo + (row + 1 + k)) % 32 = (yo + row) % 32 := congrArg (fun p => p.2.val) hcell
    omega

/-! ### One draw (R192) -/

/-- The cells that `DRW Vx, Vy, n` toggles. -/
def State.drawnCells (s : State) (x y : RegIx) (n : Nat) : List (Fin 64 × Fin 32) :=
  spritePixels (s.getV x).toNat (s.getV y).toNat 0 (s.blockAt n)

theorem mem_drawnCells {n : Nat} {cx : Fin 64} {cy : Fin 32} :
    (cx, cy) ∈ s.drawnCells x y n ↔ SpriteCovers s x y n cx cy := by
  simp [State.drawnCells, mem_spritePixels, mem_rowPixels, SpriteCovers, State.blockAt, State.effAddr, spriteByte,
    pixelColumn, pixelRow, Fin.ext_iff]

theorem nodup_drawnCells (n : BitVec 4) : (s.drawnCells x y n.toNat).Nodup := by
  have := n.isLt
  exact nodup_spritePixels _ _ _ (by rw [State.blockAt_length]; omega)

/-- The canvas after the draw. -/
def State.drawn (s : State) (x y : RegIx) (n : BitVec 4) : Canvas :=
  ({ fb := s.fb, hit := false } : Canvas).toggleAll (s.drawnCells x y n.toNat)

theorem State.drawn_cell (cx : Fin 64) (cy : Fin 32) :
    fbCell (s.drawn x y n).fb cx cy = (s.cell cx cy ^^ decide ((cx, cy) ∈ s.drawnCells x y n.toNat)) :=
  Canvas.toggleAll_cell (nodup_drawnCells n) _ (cx, cy)

theorem State.drawn_hit :
    (s.drawn x y n).hit = true ↔ ∃ cx cy, SpriteCovers s x y n.toNat cx cy ∧ s.cell cx cy = true := by
  rw [State.drawn, Canvas.toggleAll_hit (nodup_drawnCells n)]
  simp [mem_drawnCells, State.cell]

theorem exec_drw_of_readable (hr : Readable s n.toNat) :
    exec (.drw x y n) s = .next ((s.advance.setFb (s.drawn x y n).fb).setFlag (s.drawn x y n).hit) := by
  rw [exec, execDrw, State.loadBytes_of_readable hr, State.drawn, State.drawnCells, ← Canvas.drawRows_eq_toggleAll]
  rfl

/-- Settles O36: the draw toggles distinct cells, those the sprite covers, and then writes the flag. -/
theorem drawInvertsTheCellsUnderTheSprite : Obligations.DrawInvertsTheCellsUnderTheSprite := by
  intro x y n s hr
  refine ⟨_, exec_drw_of_readable hr, rfl, fun cx cy hcov => ?_, fun cx cy hcov => ?_, fun hlit => ?_, fun hdark => ?_,
    fun r => State.getV_setV_other _ _⟩
  · exact (State.drawn_cell cx cy).trans (by simp [mem_drawnCells, hcov])
  · exact (State.drawn_cell cx cy).trans (by simp [mem_drawnCells, hcov])
  · rw [State.setFlag_eq, State.getV_setV_same, State.drawn_hit.mpr hlit]
    rfl
  · have hmiss : (s.drawn x y n).hit = false := by
      rw [← Bool.not_eq_true, State.drawn_hit]
      rintro ⟨cx, cy, hcov, hlit⟩
      simp [hdark cx cy hcov] at hlit
    rw [State.setFlag_eq, State.getV_setV_same, hmiss]
    rfl

/-! ### A draw repeated (R193) -/

/-- A draw that does not end in a fault had its sprite in memory. -/
theorem readable_of_exec_drw (h : exec (.drw x y n) s = .next t) (hmode : t.mode ≠ .faulted) : Readable s n.toNat := by
  obtain ⟨hr, _⟩ | ⟨k, _, _, _, hload⟩ := s.loadBytes_cases (s.effAddr 0) n.toNat
  · exact hr
  · rw [exec, execDrw, hload] at h
    cases h
    exact absurd rfl hmode

/-- The cells a sprite covers depend on the origins, `I` and memory alone. -/
theorem spriteCovers_congr {n : Nat} (hx : t.getV x = s.getV x) (hy : t.getV y = s.getV y) (hi : t.i = s.i)
    (hmem : t.mem = s.mem) (cx : Fin 64) (cy : Fin 32) : SpriteCovers t x y n cx cy ↔ SpriteCovers s x y n cx cy := by
  simp only [SpriteCovers, spriteByte, hx, hy, hi, hmem]

/-- Settles O37: the first draw leaves origins and sprite alone, so the second inverts the same cells back. -/
theorem drawingTwiceRestoresTheFramebuffer : Obligations.DrawingTwiceRestoresTheFramebuffer := by
  intro x y n s t u hx hy _ hfirst hmode hsecond
  have hr : Readable s n.toNat := readable_of_exec_drw hfirst (by simp [hmode])
  obtain ⟨_, hexec, hframe, hcov, huncov, _, _, hkept⟩ := drawInvertsTheCellsUnderTheSprite x y n s hr
  cases hfirst.symm.trans hexec
  have hi : t.i = s.i := by rw [hframe]
  have hmem : t.mem = s.mem := by rw [hframe]
  have hrt : Readable t n.toNat := by simpa only [Readable, State.effAddr, hi] using hr
  have hsame : ∀ cx cy, SpriteCovers t x y n.toNat cx cy ↔ SpriteCovers s x y n.toNat cx cy :=
    spriteCovers_congr (hkept x hx) (hkept y hy) hi hmem
  obtain ⟨_, hexec', hframe', hcov', huncov', hlit, hdark, _⟩ := drawInvertsTheCellsUnderTheSprite x y n t hrt
  cases hsecond.symm.trans hexec'
  refine ⟨by rw [hframe', hmode], State.fb_eq_of_cell_eq fun cx cy => ?_, ?_, fun hnone => hdark fun cx cy hc => ?_⟩
  · by_cases hc : SpriteCovers s x y n.toNat cx cy
    · rw [hcov' cx cy ((hsame cx cy).mpr hc), hcov cx cy hc, Bool.not_not]
    · rw [huncov' cx cy (mt (hsame cx cy).mp hc), huncov cx cy hc]
  · rintro ⟨cx, cy, hs, ht⟩
    refine hlit ⟨cx, cy, (hsame cx cy).mpr (by_contra fun hc => ?_), ht⟩
    simp [← huncov cx cy hc, ht] at hs
  · have hinv := hcov cx cy ((hsame cx cy).mp hc)
    cases hs : s.cell cx cy with
    | false => exact hnone cx cy hs
    | true => rw [hinv, hs]; rfl

/-! ### Clearing the screen (R191) -/

theorem fbCell_replicate_zero (cx : Fin 64) (cy : Fin 32) : fbCell (Vector.replicate 32 0) cx cy = false := by
  simp [fbCell]

/-- Settles O35: the framebuffer written is all zero, and a position names one of its cells. -/
theorem clearScreenUnlightsEveryCell : Obligations.ClearScreenUnlightsEveryCell :=
  ⟨.of_toNat rfl, fun _ => ⟨_, rfl, rfl, fbCell_replicate_zero, fun _ => fbCell_replicate_zero ..⟩⟩

end Sys2Proof.Machine
end

section
/-! PROOFS. Keypad and timers (spec/44_keypad_timers.md): the instructions `LD Vx, K` (O40), `SKP` and `SKNP` (O38) and those on
the timers (O39); the wait for a key (O10), which is its instruction run again (O41) and stays at it (O42). -/

namespace Sys2Proof.Machine

open Sys2Proof.Claims

variable {s t : State} {i : Instr} {x : RegIx} {k : Nat}

/-! ### The least pressed key, taken or waited for (R203, R204) -/

/-- A pressed key with none below it is the one the scan finds. -/
theorem State.lowestKey_of_least (hk : k < 16) (hdown : s.keyDown k = true)
    (hbelow : ∀ j, j < k → s.keyDown j = false) : s.lowestKey = some k :=
  List.find?_range_eq_some.mpr ⟨hdown, List.mem_range.mpr hk, fun j hj => by simp [hbelow j hj]⟩

theorem State.pollKey_of_key (hkey : s.lowestKey = some k) : s.pollKey = s.wake k := by
  rw [State.pollKey, hkey]

theorem State.pollKey_of_no_key (hnone : s.lowestKey = none) : s.pollKey = s := by
  rw [State.pollKey, hnone]

theorem exec_ldVxK_of_key (x : RegIx) (hkey : s.lowestKey = some k) :
    exec (.ldVxK x) s = .next (s.advance.setV x (BitVec.ofNat 8 k)) := by
  rw [exec, execLdVxK, hkey]

/-- With no key pressed the advance is taken back, so `PC` stays at the instruction. -/
theorem exec_ldVxK_of_no_key (x : RegIx) (hnone : s.lowestKey = none) : exec (.ldVxK x) s = .next (s.awaitKey x) := by
  have hpc : s.advance.setPc (s.advance.pc - 2) = s := by simp [State.setPc]
  rw [exec, execLdVxK, hnone, hpc]

/-- Settles O40: the two equations of `LD Vx, K`, one for a pressed key and one for none. -/
theorem keyWaitTakesTheLowestKeyOrWaits : Obligations.KeyWaitTakesTheLowestKeyOrWaits := by
  refine fun x s => ⟨fun k hk hdown hbelow => ?_, fun hup => ?_⟩
  · exact ⟨_, exec_ldVxK_of_key x (State.lowestKey_of_least hk hdown hbelow), rfl, State.getV_setV_same ..,
      fun r => s.getV_advance_setV_other _⟩
  · exact exec_ldVxK_of_no_key x (State.lowestKey_eq_none.mpr hup)

/-- Run again in mode `Running`, the instruction waited on does what the poll does: it takes the key, or enters the wait
that the core is in. -/
theorem exec_ldVxK_running_eq_pollKey (hmode : s.mode = .awaitingKey) :
    exec (.ldVxK s.waitReg) { s with mode := .running } = .next s.pollKey := by
  cases hkey : s.lowestKey with
  | some k =>
    rw [State.pollKey_of_key hkey]
    exact exec_ldVxK_of_key s.waitReg hkey
  | none =>
    have hself : State.awaitKey { s with mode := .running } s.waitReg = s := by rw [State.awaitKey, ← hmode]
    have hkey' : State.lowestKey { s with mode := .running } = none := hkey
    rw [State.pollKey_of_no_key hkey, exec_ldVxK_of_no_key s.waitReg hkey', hself]

/-- With the word at `PC` the one waited on, an instruction cycle is a poll. -/
theorem State.instructionStep_running_eq_pollKey (hmode : s.mode = .awaitingKey)
    (hword : s.fetch = .ok (encode (.ldVxK s.waitReg))) :
    State.instructionStep { s with mode := .running } = .next s.pollKey := by
  have hfetch : State.fetch { s with mode := .running } = .ok (encode (.ldVxK s.waitReg)) := hword
  rw [State.instructionStep_of_running rfl, State.runInstruction_of_decodeWord hfetch (Laws.decodeWord_encode _),
    exec_ldVxK_running_eq_pollKey hmode]

/-- An instruction that leaves a running core waiting is an `LD Vx, K`, and has entered the wait. -/
theorem Effect.eq_awaitKey (e : Effect s i t) (hs : s.mode = .running) (ht : t.mode = .awaitingKey) :
    ∃ x, i = .ldVxK x ∧ t = s.awaitKey x := by
  have hmode : s.mode ≠ .awaitingKey := by simp [hs]
  cases e with
  | wait x => exact ⟨x, rfl, rfl⟩
  | fault => cases ht
  | random => exact absurd (by simpa using ht) hmode
  | _ => exact absurd ht hmode

/-! ### The skips on a key (R200, R201) -/

theorem State.keyTest_of_le (h : (s.getV x).toNat ≤ 15) : s.keyTest x = .ok (s.keyDown (s.getV x).toNat) :=
  if_neg (by omega)

theorem State.keyTest_of_gt (h : 15 < (s.getV x).toNat) : s.keyTest x = .error (raise .keyIndexFault (s.getV x).toNat) :=
  if_pos h

theorem exec_skp_of_le (h : (s.getV x).toNat ≤ 15) :
    exec (.skp x) s = .next (s.advance.skipIf (s.keyDown (s.getV x).toNat)) := by
  rw [exec, execSkp, State.keyTest_of_le h]
  rfl

theorem exec_sknp_of_le (h : (s.getV x).toNat ≤ 15) :
    exec (.sknp x) s = .next (s.advance.skipIf (!s.keyDown (s.getV x).toNat)) := by
  rw [exec, execSknp, State.keyTest_of_le h]
  rfl

/-- An instruction that begins with the key test faults where the test does. -/
theorem takesFault_of_keyTest {f : Bool → State} (hexec : exec i s = finish i s ((s.keyTest x).map f))
    (h : 15 < (s.getV x).toNat) : TakesFault i s .keyIndexFault (s.getV x).toNat := by
  rw [TakesFault, hexec, State.keyTest_of_gt h]
  rfl

/-- Settles O38: each is the advance and a skip on the key or on its negation, or the fault of the key test. -/
theorem keySkipsTestTheNamedKey : Obligations.KeySkipsTestTheNamedKey := by
  refine fun x s => ⟨fun h => ⟨?_, ?_⟩, fun h => ⟨takesFault_of_keyTest rfl h, takesFault_of_keyTest rfl h⟩⟩
  · rw [exec_skp_of_le h, State.advance_skipIf]
    rfl
  · rw [exec_sknp_of_le h, State.advance_skipIf]
    cases s.keyDown (s.getV x).toNat <;> rfl

/-! ### The timer unit (R239, R240) -/

/-- A tick emits the tone exactly when it takes `ST` from 1 to 0. -/
theorem State.timerTick_outputs (s : State) :
    s.timerTick.env.outputs = if s.st = 1 then s.env.outputs ++ [.toneTrigger] else s.env.outputs := by
  unfold State.timerTick
  split <;> rfl

end Sys2Proof.Machine

namespace Sys2Proof.Claims

open Sys2Proof.Machine

variable {s t u : State} {i : Instr} {x : RegIx}

/-! ### The timer instructions (R202, R205, R206) -/

/-- The word of an instruction of the rows 27 to 35 of R94. -/
theorem HasWord.of_majorF {nn : Byte} (h : encode i = packXNN 0xF x nn) :
    HasWord i (0xF000 + nn.toNat + 256 * x.toNat) :=
  .of_toNat (by rw [h, Laws.packXNN_toNat]; simp; omega)

/-- Settles O39: each is the advance and one write; what the next tick emits depends on the `ST` written alone. -/
theorem timerInstructionsReadAndSetTheTimers : Obligations.TimerInstructionsReadAndSetTheTimers := by
  intro x
  refine ⟨HasWord.of_majorF (nn := 0x07) rfl, HasWord.of_majorF (nn := 0x15) rfl, HasWord.of_majorF (nn := 0x18) rfl,
    fun s => ⟨?_, rfl, _, rfl, rfl, fun hzero => ?_, fun hone => ?_⟩⟩
  · exact ⟨_, rfl, rfl, State.getV_setV_same .., fun r => s.getV_advance_setV_other _⟩
  · rw [State.timerTick_outputs]
    exact if_neg (by simp [hzero])
  · rw [State.timerTick_outputs]
    exact if_pos hone

/-! ### The waiting step (R204, R207) -/

theorem AtStep.step_of_awaitingKey (hat : AtStep s u) (hmode : s.mode = .awaitingKey) : step s = .next u.pollKey := by
  rw [hat.step_eq]
  obtain ⟨ops, rfl⟩ := hat.eq_withSchedule
  exact State.instructionStep_of_awaitingKey hmode

/-- Settles O10: the two equations of the poll, in which the schedule plays no part. -/
theorem waitingStepPollsTheKeys : Obligations.WaitingStepPollsTheKeys := by
  intro s u hat hmode
  rw [hat.step_of_awaitingKey hmode]
  obtain ⟨ops, rfl⟩ := hat.eq_withSchedule
  refine ⟨fun k hk hdown hbelow => ?_, fun hup => ?_⟩
  · have hkey : (s.withSchedule ops).lowestKey = some k := State.lowestKey_of_least hk hdown hbelow
    rw [State.pollKey_of_key hkey]
    exact ⟨_, rfl, rfl, State.getV_setV_same .., fun r => State.getV_setV_other _ _⟩
  · have hnone : (s.withSchedule ops).lowestKey = none := State.lowestKey_eq_none.mpr hup
    rw [State.pollKey_of_no_key hnone]

/-- Which operation is next does not depend on the mode. -/
theorem AtStep.setMode (hat : AtStep s u) (m : Mode) : AtStep { s with mode := m } { u with mode := m } := by
  obtain ⟨hnone, rfl⟩ | ⟨ops, hqueued, rfl⟩ := hat
  · exact .inl ⟨hnone, rfl⟩
  · exact .inr ⟨ops, hqueued, rfl⟩

/-- Settles O41: with the word at `PC` the `LD Vx, K` waited on, the step in mode `Running` runs that instruction. -/
theorem waitingEqualsReexecuting : Obligations.WaitingEqualsReexecuting := by
  intro s u hat hmode hword
  rw [hat.step_of_awaitingKey hmode, (hat.setMode .running).step_eq]
  obtain ⟨ops, rfl⟩ := hat.eq_withSchedule
  exact (State.instructionStep_running_eq_pollKey (s := s.withSchedule ops) hmode hword).symm

/-! ### What a wait keeps (R207, R246) -/

theorem WaitsAtItsInstruction.of_running (h : s.mode = .running) : WaitsAtItsInstruction s :=
  fun hwait => by simp [h] at hwait

/-- The property reads the mode, `PC`, memory and `WAIT_REG` alone. -/
theorem WaitsAtItsInstruction.congr (hs : WaitsAtItsInstruction s) (hmode : t.mode = s.mode) (hpc : t.pc = s.pc)
    (hmem : t.mem = s.mem) (hreg : t.waitReg = s.waitReg) : WaitsAtItsInstruction t := by
  rw [WaitsAtItsInstruction, State.fetch, hmode, hpc, hmem, hreg]
  exact hs

/-- An instruction cycle that enters the wait leaves `PC` at the word it fetched, which is that of its `LD Vx, K`. -/
theorem WaitsAtItsInstruction.of_runInstruction (hs : s.mode = .running) (h : s.runInstruction = .next t) :
    WaitsAtItsInstruction t := by
  intro ht
  obtain ⟨r, _, hrun⟩ | ⟨w, _, _, hrun⟩ | ⟨w, i, hfetch, hdecode, hrun⟩ := s.runInstruction_cases
  · cases hrun.symm.trans h
    cases ht
  · cases hrun.symm.trans h
    cases ht
  · obtain ⟨x, rfl, rfl⟩ := (Effect.of_exec (hrun.symm.trans h)).eq_awaitKey hs ht
    rw [← Laws.encode_of_decodeWord hdecode] at hfetch
    exact hfetch

theorem WaitsAtItsInstruction.pollKey (hs : WaitsAtItsInstruction s) : WaitsAtItsInstruction s.pollKey := by
  obtain ⟨k, _, hpoll⟩ | ⟨_, hpoll⟩ := s.pollKey_cases
  · exact .of_running (hpoll ▸ s.wake_mode k)
  · rwa [hpoll]

theorem WaitsAtItsInstruction.instructionStep (hs : WaitsAtItsInstruction s) (h : s.instructionStep = .next t) :
    WaitsAtItsInstruction t := by
  cases hm : s.mode with
  | faulted =>
    rw [State.instructionStep_of_faulted hm] at h
    exact Host.Outcome.next.inj h ▸ hs
  | awaitingKey =>
    rw [State.instructionStep_of_awaitingKey hm] at h
    exact Host.Outcome.next.inj h ▸ hs.pollKey
  | running =>
    rw [State.instructionStep_of_running hm] at h
    exact .of_runInstruction hm h

theorem WaitsAtItsInstruction.timerTick (hs : WaitsAtItsInstruction s) : WaitsAtItsInstruction s.timerTick := by
  rw [s.timerTick_eq]
  exact hs.congr rfl rfl rfl rfl

theorem WaitsAtItsInstruction.setKey (hs : WaitsAtItsInstruction s) (k : Nat) (p : Bool) :
    WaitsAtItsInstruction (s.setKey k p) := by
  rw [s.setKey_eq]
  exact hs.congr rfl rfl rfl rfl

/-- Of the operations only `load` can overwrite the instruction waited on. -/
theorem WaitsAtItsInstruction.operate (hs : WaitsAtItsInstruction s) {op : HostOp} (hop : ∀ bytes, op ≠ .load bytes)
    (h : s.operate op = .next t) : WaitsAtItsInstruction t := by
  cases op with
  | reset => exact Host.Outcome.next.inj h ▸ .of_running rfl
  | load bytes => exact absurd rfl (hop bytes)
  | step => exact hs.instructionStep h
  | timerTick => exact Host.Outcome.next.inj h ▸ hs.timerTick
  | setKey k p => exact Host.Outcome.next.inj h ▸ hs.setKey k p
  | readFramebuffer => exact Host.Outcome.next.inj h ▸ hs.congr rfl rfl rfl rfl

/-- Settles O42: each operation but `load` keeps the property, from whatever is left queued. -/
theorem waitStaysAtItsInstruction : Obligations.WaitStaysAtItsInstruction := by
  intro s t hs hload h
  rw [step_eq_operate] at h
  have hrest : WaitsAtItsInstruction (s.withSchedule s.env.schedule.tail) := hs.congr rfl rfl rfl rfl
  exact hrest.operate (fun bytes hop => hload bytes (head?_of_headD_ne_step hop nofun)) h

end Sys2Proof.Claims
end

section
/-! PROOFS. Faults and the end of a step (spec/60_exceptions.md): an instruction's fault is precise (O11) and one that R222 lists
(O12); every step answers a next state (O13); what a step does before execute (O8) and while `Faulted` (O9); the two modes are
left only as the spec says (O57). -/

namespace Sys2Proof.Machine

open Sys2Proof.Claims

variable {s t : State} {i : Instr} {op : HostOp}

/-! ### The faults at execute (R222, R224, R225) -/

/-- Fault entry alone leads to `Faulted`: whatever ends there from another mode has taken a fault R222 lists for it. -/
theorem Effect.eq_enterFault (e : Effect s i t) (hs : s.mode ≠ .faulted) (ht : t.mode = .faulted) :
    ∃ r, r.cause ∈ executeFaults i ∧ t = s.enterFault r (encode i) := by
  cases e with
  | fault r listed => exact ⟨r, listed, rfl⟩
  | wait => cases ht
  | random => exact absurd (by simpa using ht) hs
  | _ => exact absurd ht hs

/-- Settles O11: fault entry writes the mode and the record alone, and R222 lists no cause 0. -/
theorem instructionFaultsArePrecise : Obligations.InstructionFaultsArePrecise := by
  intro i s t hs h ht
  obtain ⟨r, listed, rfl⟩ := (Effect.of_exec h).eq_enterFault hs ht
  exact ⟨rfl, fun hnone => none_not_mem_executeFaults i (hnone ▸ listed)⟩

/-- Settles O12: the cause recorded is the one raised. -/
theorem onlyTheListedInstructionsFault : Obligations.OnlyTheListedInstructionsFault := by
  intro i s t hs h ht
  obtain ⟨r, listed, rfl⟩ := (Effect.of_exec h).eq_enterFault hs ht
  exact listed

/-! ### Every operation answers a next state (R220, R236) -/

theorem State.runInstruction_answers (s : State) : ∃ t, s.runInstruction = .next t := by
  obtain ⟨_, _, h⟩ | ⟨_, _, _, h⟩ | ⟨w, i, _, _, h⟩ := s.runInstruction_cases
  · exact ⟨_, h⟩
  · exact ⟨_, h⟩
  · obtain ⟨t, ht, _⟩ := exec_effect i s
    exact ⟨t, h.trans ht⟩

theorem State.instructionStep_answers (s : State) : ∃ t, s.instructionStep = .next t := by
  cases hm : s.mode with
  | faulted => exact ⟨_, State.instructionStep_of_faulted hm⟩
  | awaitingKey => exact ⟨_, State.instructionStep_of_awaitingKey hm⟩
  | running =>
    rw [State.instructionStep_of_running hm]
    exact s.runInstruction_answers

theorem State.operate_answers (s : State) (op : HostOp) : ∃ t, s.operate op = .next t := by
  cases op with
  | step => exact s.instructionStep_answers
  | reset | load | timerTick | setKey | readFramebuffer => exact ⟨_, rfl⟩

/-- Settles O13: a step is one operation, and each answers a next state; an instruction's fault is one too. -/
theorem everyStepAnswersANextState : Obligations.EveryStepAnswersANextState := by
  intro s
  rw [step_eq_operate]
  exact State.operate_answers _ _

/-! ### The faults before execute (R221, R223) -/

theorem State.runInstruction_of_fetch_error {r : Raise} (hf : s.fetch = .error r) :
    s.runInstruction = .next (s.enterFault r 0) := by
  rw [State.runInstruction, hf]

theorem State.runInstruction_of_illegal {w : Word} (hf : s.fetch = .ok w) (hd : decodeWord w = none) :
    s.runInstruction = .next (s.enterFault (raise .invalidOpcode w.toNat) w) := by
  simp [State.runInstruction, hf, hd]

/-! ### The exits of a mode (R204, R226, R270) -/

/-- Of the operations only `reset` and `step` change the mode (R227). -/
theorem State.operate_mode (h : s.operate op = .next t) (hne : t.mode ≠ s.mode) : op = .reset ∨ op = .step := by
  cases op with
  | reset => exact .inl rfl
  | step => exact .inr rfl
  | load bytes => exact absurd (Host.Outcome.next.inj h ▸ by rw [s.load_eq]) hne
  | timerTick => exact absurd (Host.Outcome.next.inj h ▸ by rw [s.timerTick_eq]) hne
  | setKey k p => exact absurd (Host.Outcome.next.inj h ▸ by rw [s.setKey_eq]; rfl) hne
  | readFramebuffer => exact absurd (Host.Outcome.next.inj h ▸ rfl) hne

/-- A `step` does nothing while `Faulted`, so `reset` is the one way out. -/
theorem State.operate_leaves_faulted (h : s.operate op = .next t) (hs : s.mode = .faulted) (ht : t.mode ≠ .faulted) :
    op = .reset := by
  obtain rfl | rfl := State.operate_mode h (hs ▸ ht)
  · rfl
  · have hself : t = s := Host.Outcome.next.inj (h.symm.trans (State.instructionStep_of_faulted hs))
    exact absurd (hself ▸ hs) ht

/-- A `step` leaves the wait only by waking with the key its poll has found. -/
theorem State.operate_leaves_awaitingKey (h : s.operate op = .next t) (hs : s.mode = .awaitingKey)
    (ht : t.mode ≠ .awaitingKey) :
    op = .reset ∨ (op = .step ∧ t.mode = .running ∧ ∃ k, k < 16 ∧ s.keyDown k = true) := by
  obtain rfl | rfl := State.operate_mode h (hs ▸ ht)
  · exact .inl rfl
  · have hpoll : t = s.pollKey := Host.Outcome.next.inj (h.symm.trans (State.instructionStep_of_awaitingKey hs))
    obtain ⟨k, hkey, hwake⟩ | ⟨_, hstay⟩ := s.pollKey_cases
    · obtain ⟨hk, hdown, _⟩ := State.lowestKey_eq_some hkey
      exact .inr ⟨rfl, by rw [hpoll, hwake, State.wake_mode], k, hk, hdown⟩
    · exact absurd (by rw [hpoll, hstay, hs]) ht

/-- The host calls `step` when it is queued first or nothing is (R244). -/
theorem eq_nil_or_head?_of_headD_step {ops : List HostOp} (h : ops.headD .step = .step) :
    ops = [] ∨ ops.head? = some .step := by
  cases ops with
  | nil => exact .inl rfl
  | cons a l => exact .inr (congrArg some h)

/-- Settles O57: the exits of each mode by the operation performed, which is the first one queued. -/
theorem faultAndWaitAreLeftOnlyAsSaid : Obligations.FaultAndWaitAreLeftOnlyAsSaid := by
  intro s t h
  rw [step_eq_operate] at h
  refine ⟨fun hs ht => ?_, fun hs ht => ?_⟩
  · exact head?_of_headD_ne_step (State.operate_leaves_faulted h hs ht) nofun
  · obtain hop | ⟨hop, hrun, hkey⟩ := State.operate_leaves_awaitingKey h hs ht
    · exact .inl (head?_of_headD_ne_step hop nofun)
    · exact .inr ⟨eq_nil_or_head?_of_headD_step hop, hrun, hkey⟩

end Sys2Proof.Machine

namespace Sys2Proof.Claims

open Sys2Proof.Machine

variable {s u : State}

theorem AtStep.step_of_faulted (hat : AtStep s u) (hmode : s.mode = .faulted) : step s = .next u := by
  rw [hat.step_eq]
  obtain ⟨ops, rfl⟩ := hat.eq_withSchedule
  exact State.instructionStep_of_faulted hmode

/-- A state that a step leads back to itself stays as it is, however often the machine steps. -/
theorem run_of_step_self (M : Host.Core) {s : M.State} (h : M.step s = .next s) : ∀ n, M.run n s = .next s
  | 0 => rfl
  | n + 1 => by
    rw [Host.Core.run, h]
    exact run_of_step_self M h n

/-- Settles O9: one step leaves a faulted core with nothing queued as it is, so any number does. -/
theorem faultedCoreStaysAsItIs : Obligations.FaultedCoreStaysAsItIs :=
  ⟨fun _ _ hat hmode => hat.step_of_faulted hmode,
    fun n _ hmode hnone => run_of_step_self core (AtStep.step_of_faulted (.inl ⟨hnone, rfl⟩) hmode) n⟩

/-- Settles O8: the schedule plays no part in the fetch, whose fault is taken first, then that of the word fetched. -/
theorem fetchAndDecodeFaultsAreTaken : Obligations.FetchAndDecodeFaultsAreTaken := by
  intro s u hat hmode
  rw [hat.step_eq]
  obtain ⟨ops, rfl⟩ := hat.eq_withSchedule
  rw [State.instructionStep_of_running (s := s.withSchedule ops) hmode]
  exact ⟨fun hpc => State.runInstruction_of_fetch_error (s := s.withSchedule ops) (State.fetch_of_gt hpc),
    fun w hf hd => State.runInstruction_of_illegal (s := s.withSchedule ops) hf hd⟩

end Sys2Proof.Claims
end

section
/-! PROOFS. The operations of the host (spec/60_exceptions.md R236 to R247): the timer tick (O43) and the tone only it emits
(O44), `set_key` (O45), `read_framebuffer` (O46) and `load` (O47). -/

namespace Sys2Proof.Machine

open Sys2Proof.Claims

variable {s t : State}

/-! ### The timer tick (R239) -/

theorem countDown_toNat (b : Byte) : (countDown b).toNat = b.toNat - 1 := by
  unfold countDown
  split
  · next h => simp [h]
  · bv_omega

/-- A tick reaches the timers and the trace of outputs alone. -/
theorem State.timerTick_frame (s : State) :
    s.timerTick = { s with
      dt := s.timerTick.dt, st := s.timerTick.st, env := { s.env with outputs := s.timerTick.env.outputs } } := by
  unfold State.timerTick
  split <;> rfl

/-- Settles O43: the tick on the state with it off the schedule. -/
theorem tickCountsBothTimersDown : Obligations.TickCountsBothTimersDown := by
  intro s ops hqueued
  refine ⟨(s.withSchedule ops).timerTick, step_scheduled hqueued, ?_, ?_, State.timerTick_frame _,
    State.timerTick_outputs _⟩
  · rw [State.timerTick_eq]
    exact countDown_toNat s.dt
  · rw [State.timerTick_eq]
    exact countDown_toNat s.st

/-! ### What each operation emits (R240) -/

/-- No instruction step reaches the trace of outputs. -/
theorem State.instructionStep_outputs (h : s.instructionStep = .next t) : t.env.outputs = s.env.outputs := by
  obtain rfl | ⟨_, k, rfl⟩ | ⟨r, w, _, rfl⟩ | ⟨_, _, i, e⟩ := State.instructionStep_cases h
  · rfl
  · rfl
  · rfl
  · rw [e.env_eq]

theorem State.load_of_fits {bytes : List Byte} (h : bytes.length ≤ 3584) :
    s.load bytes = (s.setMem (s.mem.writeAll 512 bytes)).emit .loadOk :=
  if_neg (Nat.not_lt.mpr h)

theorem State.load_of_too_large {bytes : List Byte} (h : 3584 < bytes.length) : s.load bytes = s.emit .loadTooLarge :=
  if_pos h

/-- `load` emits its result, never the tone. -/
theorem State.load_outputs_ne_tone (s : State) (bytes : List Byte) :
    (s.load bytes).env.outputs ≠ s.env.outputs ++ [.toneTrigger] := by
  obtain h | h := Nat.lt_or_ge 3584 bytes.length
  · simp [State.load_of_too_large h]
  · simp [State.load_of_fits h]

/-- Of the operations a tick with `ST = 1` alone emits the tone. -/
theorem State.operate_emits_tone_iff {op : HostOp} (h : s.operate op = .next t) :
    t.env.outputs = s.env.outputs ++ [.toneTrigger] ↔ op = .timerTick ∧ s.st = 1 := by
  cases op with
  | reset =>
    have henv : t.env = s.env := Host.Outcome.next.inj h ▸ rfl
    simp [henv]
  | load bytes =>
    have hload := s.load_outputs_ne_tone bytes
    simpa [← Host.Outcome.next.inj h] using hload
  | step => simp [State.instructionStep_outputs h]
  | timerTick =>
    rw [← Host.Outcome.next.inj h, State.timerTick_outputs]
    by_cases hst : s.st = 1 <;> simp [hst]
  | setKey k p =>
    have henv : t.env = s.env := by rw [← Host.Outcome.next.inj h, s.setKey_eq, State.setKeys_env]
    simp [henv]
  | readFramebuffer => simp [← Host.Outcome.next.inj h, State.readFramebuffer]

/-- An operation that is not `step` is the one performed exactly when it is queued first. -/
theorem headD_step_eq_iff {ops : List HostOp} {op : HostOp} (hop : op ≠ .step) :
    ops.headD .step = op ↔ ops.head? = some op :=
  ⟨fun h => head?_of_headD_ne_step h hop, fun h => by rw [List.headD_eq_head?_getD, h, Option.getD_some]⟩

/-- Settles O44: what the operation performed emits; taking it off the schedule emits nothing. -/
theorem onlyATickFromOneEmitsTheTone : Obligations.OnlyATickFromOneEmitsTheTone := by
  intro s t h
  rw [step_eq_operate] at h
  rw [← headD_step_eq_iff (op := .timerTick) nofun]
  exact State.operate_emits_tone_iff (s := s.withSchedule s.env.schedule.tail) h

/-! ### `set_key` (R241) -/

/-- `set_key` writes the bit it names, when there is one, and no other. -/
theorem State.setKey_keyDown (s : State) (k j : Nat) (p : Bool) :
    (s.setKey k p).keyDown j = if j = k ∧ k ≤ 15 then p else s.keyDown j := by
  obtain hk | hk := Nat.lt_or_ge 15 k
  · rw [s.setKey_of_gt p hk, if_neg (by omega)]
  · have hk16 : k < 16 := by omega
    rw [State.setKey, if_neg (Nat.not_lt.mpr hk)]
    obtain rfl | hj := eq_or_ne j k
    · cases p <;> simp [State.keyDown, hk, hk16]
    · cases p with
      | true => simp [State.keyDown, hj, hj.symm]
      -- An index above the latch reads 0 before as after.
      | false => simpa [State.keyDown, hj, hj.symm] using BitVec.lt_of_getLsbD

/-- Settles O45: the bits of the latch after `set_key`, on the state with it off the schedule. -/
theorem setKeyWritesOneLatchBit : Obligations.SetKeyWritesOneLatchBit := by
  intro s ops k p hqueued
  have hkeys := (s.withSchedule ops).setKey_keyDown k (p := p)
  refine ⟨_, step_scheduled hqueued, State.setKey_eq .., fun hk => ?_, fun j hj => ?_, fun hk => ?_⟩
  · exact (hkeys k).trans (if_pos ⟨rfl, hk⟩)
  · exact (hkeys j).trans (if_neg fun h => hj h.1)
  · rw [State.setKey_of_gt _ p hk]
    rfl

/-! ### `read_framebuffer` (R242) -/

/-- Position `cy * 64 + cx` of a framebuffer is its cell `(cx, cy)` (R29). -/
theorem fbBit_eq_fbCell (f : Framebuffer) {cx : Fin 64} {cy : Fin 32} {i : Fin 2048} (h : i.val = cy.val * 64 + cx.val) :
    fbBit f i = fbCell f cx cy := by
  have hcx : i.val % 64 = cx.val := by omega
  have hcy : i.val / 64 = cy.val := by omega
  simp only [fbBit, hcx, hcy]

/-- Settles O46: the snapshot is the framebuffer of the state read. -/
theorem framebufferReadIsASnapshot : Obligations.FramebufferReadIsASnapshot :=
  fun s _ hqueued => ⟨_, s.fb, step_scheduled hqueued, rfl, fun _ _ _ => fbBit_eq_fbCell s.fb⟩

/-! ### `load` (R238) -/

/-- Settles O47: the block write of a program that fits, read inside and outside the block, or the refusal. -/
theorem loadCopiesOrRejectsWhole : Obligations.LoadCopiesOrRejectsWhole := by
  intro s ops bytes hqueued
  have hstep : step s = .next ((s.withSchedule ops).load bytes) := step_scheduled hqueued
  refine ⟨fun hfits => ?_, fun hlarge => ?_⟩
  · rw [State.load_of_fits hfits] at hstep
    exact ⟨_, hstep, rfl, Memory.read_writeAll_inside bytes s.mem 512, Memory.read_writeAll_outside bytes s.mem 512⟩
  · rw [hstep, State.load_of_too_large hlarge]
    rfl

end Sys2Proof.Machine
end

section
/-! PROOFS. The two ends of a run (spec/70_reset_and_hazards.md): a core at a jump to itself stays as it is (O59, R274), and
`reset` brings every piece of state to its reset value (O48, R270). -/

namespace Sys2Proof.Claims

open Sys2Proof.Machine

variable {s u : State}

/-! ### The normal end (R274) -/

/-- A core that has ended normally runs the jump to its own `PC`, which writes what stands there. -/
theorem instructionStep_of_endedNormally (hend : s.endedNormally) : s.instructionStep = .next s := by
  obtain ⟨hmode, nnn, hfetch, hself⟩ := hend
  calc s.instructionStep = s.runInstruction := State.instructionStep_of_running hmode
    _ = exec (.jp nnn) s := State.runInstruction_of_decodeWord hfetch (Laws.decodeWord_encode _)
    _ = .next (s.setPc s.pc) := hself ▸ exec_jp nnn
    _ = .next s := by rw [s.setPc_self]

/-- The schedule plays no part in having ended. -/
theorem AtStep.step_of_endedNormally (hat : AtStep s u) (hend : s.endedNormally) : step s = .next u := by
  rw [hat.step_eq]
  obtain ⟨ops, rfl⟩ := hat.eq_withSchedule
  exact instructionStep_of_endedNormally hend

/-- Settles O59: one step leaves an ended core with nothing queued as it is, so any number does. -/
theorem endedRunStaysAsItIs : Obligations.EndedRunStaysAsItIs :=
  ⟨fun _ _ hat hend => hat.step_of_endedNormally hend,
    fun n _ hend hnone => run_of_step_self core (AtStep.step_of_endedNormally (.inl ⟨hnone, rfl⟩) hend) n⟩

/-! ### `reset` (R270) -/

/-- Every address of a core just reset reads its font byte or, from 80 up, 0. -/
theorem read_resetWith (e : Env) (a : Nat) : (State.resetWith e).mem.read a = fontByte e.font a := by
  rw [State.resetWith_mem, Memory.read_ofFont]

/-- Settles O48: the state that reset leaves in the environment with the operation off the schedule; memory by the laws of
the reset memory, the framebuffer as a screen just cleared. -/
theorem resetRestoresEveryPieceOfState : Obligations.ResetRestoresEveryPieceOfState := by
  intro s ops hqueued
  have hstep : step s = .next (s.withSchedule ops).hostReset := step_scheduled hqueued
  have hread := read_resetWith (s.withSchedule ops).env
  exact ⟨_, hstep, rfl, rfl, rfl, rfl, rfl, rfl, fun r => Vector.getElem_replicate r.isLt,
    fun _ hk => Vector.getElem_replicate hk, fbCell_replicate_zero, fun a _ => hread a,
    fun a ha => (hread a).trans (fontByte_of_ge _ ha), rfl, rfl, rfl, rfl, rfl, rfl, rfl⟩

end Sys2Proof.Claims
end
